-- ==== Sys2Proof/Word.lean ====
section
/-! DEFINITION. The widths the spec gives its cells and words (00_scope.md R6, R7; 20_memory.md R64).
All values are unsigned; bit 0 is the least significant bit. -/

namespace Sys2Proof

/-- A cell of `S`, `SEED`, `D` or `X`, a status code, an opcode or an `idx` field: 8 bits. -/
abbrev Byte := BitVec 8

/-- A Length List entry (`LENW` = 16) or an `imm` field: 16 bits. -/
abbrev Half := BitVec 16

/-- A command word (`CMDW` = 32), a response datum, `SKIP` or `ERRINFO`: 32 bits. -/
abbrev Word := BitVec 32

end Sys2Proof
end

