-- ==== Sys2Proof/Syntax.lean ====
section
/-! DEFINITION. The instructions of the Knot Hash mixer engine: the 34 commands of 30_encoding.md R84 and
the length instruction of R88 (the table's row `LEN`), in the table's order. A field that the command's
format (R82) does not use has no place here; `idx` has 8 bits and `imm` 16 (R81), taken as they stand
(R83). -/

namespace Sys2Proof

/-- One constructor per row of the opcode table. -/
inductive Instr where
  /-- CSRR `idx`: read a control or status register (R200). -/
  | csrr (idx : Byte)
  /-- CSRW `idx`, `imm`: write `N` or `ROUNDS` (R201). -/
  | csrw (idx : Byte) (imm : Half)
  /-- CLRERR: clear the error capture registers (R202). -/
  | clrerr
  /-- RESET: put the engine into its reset state (R203). -/
  | reset
  /-- SEEDCLR: empty the seed buffer (R120). -/
  | seedclr
  /-- SEEDPUSH `imm`: append one seed character (R121). -/
  | seedpush (imm : Half)
  /-- SEEDGET `idx`: read one seed character (R122). -/
  | seedget (idx : Byte)
  /-- LCLR: empty the Length List (R123). -/
  | lclr
  /-- LPUSH `imm`: append one length instruction (R124). -/
  | lpush (imm : Half)
  /-- LGET `idx`: read one Length List entry (R125). -/
  | lget (idx : Byte)
  /-- DERIVE: the Length List of the seed string (R127). -/
  | derive
  /-- DERIVER `idx`: the Length List of the row string for row `idx` (R128). -/
  | deriver (idx : Byte)
  /-- INIT: a fresh sparse state of length `N` (R100). -/
  | init
  /-- MIX `imm`: one length instruction on the current sparse state (R102). -/
  | mix (imm : Half)
  /-- RUN: the whole Length List, `ROUNDS` times, from a fresh sparse state (R130). -/
  | run
  /-- SGET `idx`: read one sparse cell by logical position (R106). -/
  | sget (idx : Byte)
  /-- DENSE: fold the sparse state into the digest (R140). -/
  | dense
  /-- DGET `idx`: read one digest byte (R141). -/
  | dget (idx : Byte)
  /-- DCLR: empty the digest buffer (R142). -/
  | dclr
  /-- DPUSH `imm`: append one digest byte (R143). -/
  | dpush (imm : Half)
  /-- HEXENC: render the digest as lowercase hex (R150). -/
  | hexenc
  /-- XGET `idx`: read one hex character (R152). -/
  | xget (idx : Byte)
  /-- XCLR: empty the hex buffer (R153). -/
  | xclr
  /-- XPUSH `imm`: append one hex character (R154). -/
  | xpush (imm : Half)
  /-- HEXDEC: expand the hex string into bits (R155). -/
  | hexdec
  /-- BGET `idx`: read one bit (R157). -/
  | bget (idx : Byte)
  /-- GCLR: remove every grid row (R170). -/
  | gclr
  /-- GPUSH: append the bit sequence as a grid row (R171). -/
  | gpush
  /-- GGET `idx`, `imm`: read the grid cell in row `idx`, column `imm` (R172). -/
  | gget (idx : Byte) (imm : Half)
  /-- GWGET `idx`: read the width of a grid row (R173). -/
  | gwget (idx : Byte)
  /-- COUNT: count the set cells (R174). -/
  | count
  /-- HASH: the Knot Hash of the seed string (R176). -/
  | hash
  /-- ROWGEN: the whole grid of the seed string (R177). -/
  | rowgen
  /-- REGION: count the 4-connected regions (R190). -/
  | region
  /-- The length instruction, the table's row `LEN`: one entry of the Length List (R88, R101). It is no
  command; only RUN executes it, from `L`. -/
  | len (v : Half)
deriving DecidableEq, Repr

end Sys2Proof
end

