-- ==== Sys2Proof/Decode.lean ====
section
/-! DEFINITION. Decoding and encoding (30_encoding.md R80 to R88). `decode` is total: it answers an
instruction or the name of the reason why the word selects none. -/

namespace Sys2Proof

/-- A unit of code, by the place the engine takes it from: a 32-bit command word from `CMD` (R80) or a
16-bit entry of the Length List (R88). -/
inductive Code where
  | command (w : Word)
  | length (v : Half)
deriving DecidableEq, Repr

/-- Why a command word selects no command (R85). The engine reports each as `IllegalCommandError`. -/
inductive DecodeError where
  /-- `op` is none of the 34 values of R84. -/
  | unassignedOpcode (op : Byte)
  /-- The format is `Z` or `I` and `idx` is not 0. -/
  | nonzeroIdx (idx : Byte)
  /-- The format is `Z` or `X` and `imm` is not 0. -/
  | nonzeroImm (imm : Half)
deriving DecidableEq, Repr

/-- The four formats of R82, each with the commands it makes from the operands it uses. -/
inductive Format where
  | z (i : Instr)
  | i (f : Half → Instr)
  | x (f : Byte → Instr)
  | xi (f : Byte → Half → Instr)

/-- `w[31:24]` (R81). -/
def fieldOp (w : Word) : Byte := w.extractLsb' 24 8

/-- `w[23:16]` (R81). -/
def fieldIdx (w : Word) : Byte := w.extractLsb' 16 8

/-- `w[15:0]` (R81). -/
def fieldImm (w : Word) : Half := w.extractLsb' 0 16

/-- The opcode map of R84, in its order. -/
def opcodeMap : List (Byte × Format) :=
  [
    (0x01#8, .x .csrr),
    (0x02#8, .xi .csrw),
    (0x03#8, .z .clrerr),
    (0x04#8, .z .reset),
    (0x10#8, .z .seedclr),
    (0x11#8, .i .seedpush),
    (0x12#8, .x .seedget),
    (0x14#8, .z .lclr),
    (0x15#8, .i .lpush),
    (0x16#8, .x .lget),
    (0x18#8, .z .derive),
    (0x19#8, .x .deriver),
    (0x20#8, .z .init),
    (0x21#8, .i .mix),
    (0x22#8, .z .run),
    (0x23#8, .x .sget),
    (0x30#8, .z .dense),
    (0x31#8, .x .dget),
    (0x32#8, .z .dclr),
    (0x33#8, .i .dpush),
    (0x40#8, .z .hexenc),
    (0x41#8, .x .xget),
    (0x42#8, .z .xclr),
    (0x43#8, .i .xpush),
    (0x44#8, .z .hexdec),
    (0x45#8, .x .bget),
    (0x50#8, .z .gclr),
    (0x51#8, .z .gpush),
    (0x52#8, .xi .gget),
    (0x53#8, .x .gwget),
    (0x54#8, .z .count),
    (0x58#8, .z .hash),
    (0x59#8, .z .rowgen),
    (0x60#8, .z .region)]

/-- The operands of a format from the fields `idx` and `imm`, with the must-be-zero checks of R82 in the
order of R85. -/
def Format.read (f : Format) (idx : Byte) (imm : Half) : Except DecodeError Instr :=
  match f with
  | .z c => if idx ≠ 0 then .error (.nonzeroIdx idx) else if imm ≠ 0 then .error (.nonzeroImm imm) else .ok c
  | .i c => if idx ≠ 0 then .error (.nonzeroIdx idx) else .ok (c imm)
  | .x c => if imm ≠ 0 then .error (.nonzeroImm imm) else .ok (c idx)
  | .xi c => .ok (c idx imm)

/-- Decode of a command word (R85). -/
def decodeCommand (w : Word) : Except DecodeError Instr :=
  match opcodeMap.lookup (fieldOp w) with
  | none => .error (.unassignedOpcode (fieldOp w))
  | some f => f.read (fieldIdx w) (fieldImm w)

/-- Decode of a unit of code. A Length List entry has no opcode: every 16-bit value is a length
instruction (R88). -/
def decode : Code → Except DecodeError Instr
  | .command w => decodeCommand w
  | .length v => .ok (.len v)

/-- A command word from its fields (R81). -/
def assemble (op : Byte) (idx : Byte) (imm : Half) : Word := op ++ idx ++ imm

/-- The unit of code of an instruction, from the `match` column of R84 and the formats of R82. -/
def encode : Instr → Code
  | .csrr idx => .command (assemble 0x01#8 idx 0#16)
  | .csrw idx imm => .command (assemble 0x02#8 idx imm)
  | .clrerr => .command (assemble 0x03#8 0#8 0#16)
  | .reset => .command (assemble 0x04#8 0#8 0#16)
  | .seedclr => .command (assemble 0x10#8 0#8 0#16)
  | .seedpush imm => .command (assemble 0x11#8 0#8 imm)
  | .seedget idx => .command (assemble 0x12#8 idx 0#16)
  | .lclr => .command (assemble 0x14#8 0#8 0#16)
  | .lpush imm => .command (assemble 0x15#8 0#8 imm)
  | .lget idx => .command (assemble 0x16#8 idx 0#16)
  | .derive => .command (assemble 0x18#8 0#8 0#16)
  | .deriver idx => .command (assemble 0x19#8 idx 0#16)
  | .init => .command (assemble 0x20#8 0#8 0#16)
  | .mix imm => .command (assemble 0x21#8 0#8 imm)
  | .run => .command (assemble 0x22#8 0#8 0#16)
  | .sget idx => .command (assemble 0x23#8 idx 0#16)
  | .dense => .command (assemble 0x30#8 0#8 0#16)
  | .dget idx => .command (assemble 0x31#8 idx 0#16)
  | .dclr => .command (assemble 0x32#8 0#8 0#16)
  | .dpush imm => .command (assemble 0x33#8 0#8 imm)
  | .hexenc => .command (assemble 0x40#8 0#8 0#16)
  | .xget idx => .command (assemble 0x41#8 idx 0#16)
  | .xclr => .command (assemble 0x42#8 0#8 0#16)
  | .xpush imm => .command (assemble 0x43#8 0#8 imm)
  | .hexdec => .command (assemble 0x44#8 0#8 0#16)
  | .bget idx => .command (assemble 0x45#8 idx 0#16)
  | .gclr => .command (assemble 0x50#8 0#8 0#16)
  | .gpush => .command (assemble 0x51#8 0#8 0#16)
  | .gget idx imm => .command (assemble 0x52#8 idx imm)
  | .gwget idx => .command (assemble 0x53#8 idx 0#16)
  | .count => .command (assemble 0x54#8 0#8 0#16)
  | .hash => .command (assemble 0x58#8 0#8 0#16)
  | .rowgen => .command (assemble 0x59#8 0#8 0#16)
  | .region => .command (assemble 0x60#8 0#8 0#16)
  | .len v => .length v

/-- The code of an instruction as 32 bits: the command word that R210 gives as an error's info (for a
length instruction its value, zero-extended). -/
def commandWord (i : Instr) : Word :=
  match encode i with
  | .command w => w
  | .length v => v.setWidth 32

/-- The instruction the decoder reads from a row's `nbits` bits: 32 for a command word on `CMD`, 16 for an
entry of `L`. -/
def decodeTableWord (nbits w : Nat) : Option Instr :=
  if nbits = 32 then (decode (.command (BitVec.ofNat 32 w))).toOption
  else if nbits = 16 then (decode (.length (BitVec.ofNat 16 w))).toOption
  else none

end Sys2Proof
end

