-- ==== Sys2Proof/Config.lean ====
section
/-! DEFINITION. The implementation parameters of 00_scope.md R6, each at the value this hardware takes.
The spec leaves no value free (93_implementation_defined.md: nothing is `any value` in a way a host can
see), so no opaque constant stands here. -/

namespace Sys2Proof.Config

/-- `NMAX`: the largest sequence length `N`, and its reset value (R6, R26). -/
def nMax : Nat := 256

/-- The reset value of `ROUNDS` (R27, R47). -/
def roundsReset : Nat := 64

/-- `HASH_N`: the sequence length HASH and ROWGEN force (R6, R176). -/
def hashN : Nat := 256

/-- `HASH_ROUNDS`: the round count HASH and ROWGEN force (R6, R176). -/
def hashRounds : Nat := 64

/-- `SUFFIX`: the five values appended to a seed-derived Length List, in order (R6, R43). -/
def suffix : List Byte := [17, 31, 73, 47, 23]

/-- `BLOCK`: sparse cells folded into one digest byte (R6, R140). -/
def block : Nat := 16

/-- `DMAX`: capacity of the digest buffer `D` in bytes (R6). -/
def dMax : Nat := 16

/-- `XMAX`: capacity of the hex buffer `X` in characters (R6). -/
def xMax : Nat := 32

/-- `W`: capacity of the bit buffer `B` and of one grid row, in cells (R6). -/
def gridW : Nat := 128

/-- `H`: capacity of the grid in rows, and the rows ROWGEN produces (R6). -/
def gridH : Nat := 128

/-- `SEEDMAX`: capacity of the seed buffer in characters (R6). -/
def seedMax : Nat := 240

/-- `LMAX`: capacity of the Length List in entries (R6). -/
def lMax : Nat := 256

/-- `2^SKIPW - 1`: the largest value `SKIP` holds (R6, R23). -/
def skipMax : Nat := 4294967295

/-- `ROWSEP`: the character `-` between the seed and the row number (R6, R90). -/
def rowSep : Byte := 0x2D

/-- The code of the character `0`; `0` to `9` are consecutive (R90; general knowledge K1 of the spec). -/
def digitBase : Nat := 0x30

/-- The code of the character `a`; `a` to `f` are consecutive (R90; general knowledge K1 of the spec). -/
def letterBase : Nat := 0x61

end Sys2Proof.Config
end

