-- ==== Sys2Proof/Machine/State.lean ====
section
/-! DEFINITION. The state of the engine (10_state.md R20), its reset value (R47), the error names (R210),
and the types of the three ports of 00_scope.md R10.

Each buffer is the list of its present cells, and its length register is the list's length (R46, R48):
`SLEN`, `LLEN`, `DLEN`, `XLEN`, `BLEN`, `GH` and `GW[r]` are the lengths of `seed`, `lens`, `digest`,
`hex`, `bits`, `grid` and `grid[r]`. An absent cell has no value to ask for. -/

namespace Sys2Proof.Machine

/-- The eight errors of R210. None stops the engine: a failed command is an ordinary step (R215). -/
inductive Error where
  | invalidLength
  | invalidSparseLength
  | invalidHexChar
  | malformedGrid
  | illegalCommand
  | operandRange
  | capacity
  | skipOverflow
deriving DecidableEq, Repr

/-- What leaves the engine on `RSP` for one command (R12, R89). -/
structure Response where
  status : Byte
  data : Word
deriving DecidableEq, Repr

/-- One move of the host between two commands: a word on `CMD`, or an assertion of `RST` (R13 item 8,
R241). -/
inductive HostMove where
  | command (w : Word)
  | rst
deriving DecidableEq, Repr

/-- The document's Sparse State: `S` as the list of its `N` present cells by logical position, the cursor
`POS` and the skip size `SKIP` (R21, R22, R23, R48). -/
structure Sparse where
  cells : List Byte
  pos : Byte
  skip : Word
deriving DecidableEq, Repr

/-- The architectural state of R20, and two fields of the model's own for the ports (log entries 1, 2). -/
structure State where
  /-- `N`, 9 bits (R26). -/
  n : BitVec 9
  /-- `ROUNDS`, 16 bits (R27). -/
  rounds : BitVec 16
  /-- `S`, `POS`, `SKIP` (R21 to R23). -/
  sparse : Sparse
  /-- `SEED[0 .. SLEN-1]` (R28). -/
  seed : List Byte
  /-- `L[0 .. LLEN-1]` (R29). -/
  lens : List Half
  /-- `D[0 .. DLEN-1]` (R30). -/
  digest : List Byte
  /-- `X[0 .. XLEN-1]` (R31). -/
  hex : List Byte
  /-- `B[0 .. BLEN-1]` (R32). -/
  bits : List Bool
  /-- `G[0 .. GH-1]`, row `r` having `GW[r]` cells; `true` is a set cell (R33 to R35). -/
  grid : List (List Bool)
  /-- `UCNT`, 15 bits (R36). -/
  ucnt : BitVec 15
  /-- `RCNT`, 14 bits (R37). -/
  rcnt : BitVec 14
  /-- `ERR`, 8 bits (R38). -/
  err : Byte
  /-- `ERRINFO`, 32 bits (R39). -/
  errInfo : Word
  /-- The model's own: the moves the host has yet to make, the next one first (log entry 1). -/
  pending : List HostMove
  /-- The `RSP` port: the response to the last command since reset, none before the first (log entry 2). -/
  rsp : Option Response
deriving DecidableEq, Repr

/-- Reasons to stop with a fault. There are none: every command on every state has exactly one outcome,
and the engine is never stuck (R250; 93_implementation_defined.md). -/
inductive Fault : Type
deriving DecidableEq, Repr

/-- Reasons to have no meaning for an instruction. -/
inductive Refusal where
  /-- Raised by an arm of `exec` for an instruction that has no meaning yet (safe: the model stops where
  the hardware goes on). No arm of this model raises it. -/
  | notModelled (mnemonic : String)
deriving DecidableEq, Repr

/-- The reset state of R47; no host move is pending and no command has been answered. -/
def State.reset : State where
  n := BitVec.ofNat 9 Config.nMax
  rounds := BitVec.ofNat 16 Config.roundsReset
  sparse := { cells := (List.range Config.nMax).map (BitVec.ofNat 8), pos := 0, skip := 0 }
  seed := []
  lens := []
  digest := []
  hex := []
  bits := []
  grid := []
  ucnt := 0
  rcnt := 0
  err := 0
  errInfo := 0
  pending := []
  rsp := none

/-- The outcome of a meaning. -/
abbrev Result := Host.Outcome State Fault Refusal

end Sys2Proof.Machine
end

