-- ==== Sys2Proof/Machine/Flags.lean ====
section
/-! DEFINITION. The only flag-like state, `ERR` and `ERRINFO` (10_state.md R38, R39, R41), and the error
codes of 60_exceptions.md R210. The engine has no condition codes. -/

namespace Sys2Proof.Machine

/-- The `status` of a successful response (R210). -/
def successCode : Byte := 0x00

/-- The code of an error (R210). -/
def errorCode : Error → Byte
  | .invalidLength => 0x01
  | .invalidSparseLength => 0x02
  | .invalidHexChar => 0x03
  | .malformedGrid => 0x04
  | .illegalCommand => 0x10
  | .operandRange => 0x11
  | .capacity => 0x12
  | .skipOverflow => 0x13

/-- Capture of an error: only the first since the last clear is kept (R38, R215). -/
def captureError (e : Error) (info : Word) (s : State) : State :=
  { s with
    err := if s.err = 0 then errorCode e else s.err
    errInfo := if s.err = 0 then info else s.errInfo }

/-- `ERR` and `ERRINFO` cleared together (R39, R202). -/
def clearCapture (s : State) : State := { s with err := 0, errInfo := 0 }

end Sys2Proof.Machine
end

