-- ==== Sys2Proof/Machine/Memory.lean ====
section
/-! DEFINITION. The engine's private address spaces (20_memory.md R60): single-cell reads and appends
(R61), and the canonical form of the spaces. A space is the list of its present cells (10_state.md R48),
so equal contents are equal lists and an absent cell cannot be named. -/

namespace Sys2Proof.Machine

/-- `MemRead(space, idx, 1)`: the cell, or none where it is absent (R46, R61). -/
def readCell {α : Type} (space : List α) (idx : Nat) : Option α := space[idx]?

/-- `MemWrite(space, LEN, 1, v)` and `LEN <- LEN + 1`, or none where the space is full (R61). -/
def appendCell {α : Type} (cap : Nat) (space : List α) (v : α) : Option (List α) :=
  if cap ≤ space.length then none else some (space ++ [v])

/-- A length that a row of bits can have: at most `W` and a multiple of 4 (R32, R34). -/
def bitRowOk (row : List Bool) : Bool := row.length ≤ Config.gridW && row.length % 4 = 0

/-- The canonical form of the spaces: no buffer holds more cells than its capacity, and every bit row has
a legal width (R28 to R35, R48). -/
def Memory.wf (s : State) : Bool :=
  s.seed.length ≤ Config.seedMax && s.lens.length ≤ Config.lMax && s.digest.length ≤ Config.dMax
    && s.hex.length ≤ Config.xMax && bitRowOk s.bits && s.grid.length ≤ Config.gridH
    && s.grid.all bitRowOk

end Sys2Proof.Machine
end

