-- ==== Sys2Proof/Machine/Ops.lean ====
section
/-! DEFINITION. The shared operations: the response of a command, the failure of a command (the engine's
only exception, 60_exceptions.md R215), reset, the mixing step (40_sparse_mixer.md R101) and the fresh
sparse state (R100). There is no return from an exception: a failure transfers no control (R216); what
undoes its capture is `clearCapture`. -/

namespace Sys2Proof.Machine

/-- `s` with the response of a successful command on `RSP` (R12). -/
def answered (data : Word) (s : State) : State := { s with rsp := some ⟨successCode, data⟩ }

/-- `respond(0x00, data)` (R12). -/
def respond (data : Word) (s : State) : Result := .next (answered data s)

/-- `s` after a failed command: nothing changes but the capture and the response (R215). -/
def failed (e : Error) (info : Word) (s : State) : State :=
  { captureError e info s with rsp := some ⟨errorCode e, info⟩ }

/-- `raise e(info)`: take the exception (R8, R215). -/
def raise (e : Error) (info : Word) (s : State) : Result := .next (failed e info s)

/-- Respond with a cell read, or fail with `OperandRangeError` and the command word where it is absent
(R46, R61). -/
def respondCell (word : Word) (cell : Option Word) (s : State) : Result :=
  match cell with
  | none => raise .operandRange word s
  | some v => respond v s

/-- The reset event: every piece of architectural state at its reset value, no response (R240). The moves
the host has yet to make are not the engine's and stay. -/
def resetEngine (s : State) : State := { State.reset with pending := s.pending }

/-- A fresh sparse state of length `n` (R100). -/
def freshSparse (n : Nat) : Sparse := { cells := (List.range n).map (BitVec.ofNat 8), pos := 0, skip := 0 }

/-- A successful write of `N`: it re-initialises the sparse state, whatever the value (R26, R201). -/
def writeN (v : Nat) (s : State) : State := { s with n := BitVec.ofNat 9 v, sparse := freshSparse v }

/-- A write of `ROUNDS` (R27, R201). -/
def writeRounds (v : Half) (s : State) : State := { s with rounds := v }

/-- A list turned left by `k` places, `k` at most its length. -/
def rotl {α : Type} (k : Nat) (l : List α) : List α := l.drop k ++ l.take k

/-- Effect 1 of the mixing step: the `len` cells at positions `(pos + i) mod N`, `i < len`, in reverse
order. It is written on the backing view `BK[i] = S[(pos + i) mod N]` of R104, whose first `len` elements
are reversed and which is then turned back to logical positions. -/
def reverseFrom (pos len : Nat) (cells : List Byte) : List Byte :=
  let view := rotl pos cells
  rotl (cells.length - pos) ((view.take len).reverse ++ view.drop len)

/-- `MIXSTEP(len)` for sequence length `n` (R101): the reversal, the cursor advance by the exact sum with
the old skip size, the increment. -/
def mixStep (n : Nat) (p : Sparse) (len : Half) : Sparse where
  cells := reverseFrom p.pos.toNat len.toNat p.cells
  pos := BitVec.ofNat 8 ((p.pos.toNat + len.toNat + p.skip.toNat) % n)
  skip := p.skip + 1

/-- The checks and the effect of one length instruction on the current sparse state: the length against
`N`, then the room left in `SKIP`, then `MIXSTEP` (R102). -/
def tryMix (n : Nat) (p : Sparse) (len : Half) : Except Error Sparse :=
  if n < len.toNat then .error .invalidLength
  else if p.skip.toNat = Config.skipMax then .error .skipOverflow
  else .ok (mixStep n p len)

end Sys2Proof.Machine
end

