-- ==== Sys2Proof/Machine/Operands.lean ====
section
/-! DEFINITION. Operand forms (30_encoding.md R83): the byte operand, the control-register numbers with
what each reads (10_state.md R42, R43), and the values CSRW accepts (46_system.md R201). -/

namespace Sys2Proof.Machine

/-- An immediate that is a character code or a byte: `0 .. 255`, taken as `imm[7:0]` (R83, R121). -/
def byteOperand (imm : Half) : Option Byte := if imm.toNat ≤ 255 then some (imm.setWidth 8) else none

/-- The control and status registers of R42. -/
inductive Csr where
  | n | rounds | pos | skip | slen | llen | dlen | xlen | blen | gh | ucnt | rcnt | err | errInfo
  | sfx0 | sfx1 | sfx2 | sfx3 | sfx4
deriving DecidableEq, Repr

/-- The register a number names; none for the undefined numbers 0x0E, 0x0F and 0x15 to 0xFF (R42). -/
def csrOfNumber (idx : Byte) : Option Csr :=
  match idx.toNat with
  | 0x00 => some .n
  | 0x01 => some .rounds
  | 0x02 => some .pos
  | 0x03 => some .skip
  | 0x04 => some .slen
  | 0x05 => some .llen
  | 0x06 => some .dlen
  | 0x07 => some .xlen
  | 0x08 => some .blen
  | 0x09 => some .gh
  | 0x0A => some .ucnt
  | 0x0B => some .rcnt
  | 0x0C => some .err
  | 0x0D => some .errInfo
  | 0x10 => some .sfx0
  | 0x11 => some .sfx1
  | 0x12 => some .sfx2
  | 0x13 => some .sfx3
  | 0x14 => some .sfx4
  | _ => none

/-- `SUFFIX[k]` as the hardwired register `SFXk` reads (R43). -/
def suffixRegister (k : Nat) : Word := (Config.suffix.getD k 0).setWidth 32

/-- The value of a control or status register, zero-extended to 32 bits (R25, R42). -/
def csrValue (s : State) : Csr → Word
  | .n => s.n.setWidth 32
  | .rounds => s.rounds.setWidth 32
  | .pos => s.sparse.pos.setWidth 32
  | .skip => s.sparse.skip
  | .slen => BitVec.ofNat 32 s.seed.length
  | .llen => BitVec.ofNat 32 s.lens.length
  | .dlen => BitVec.ofNat 32 s.digest.length
  | .xlen => BitVec.ofNat 32 s.hex.length
  | .blen => BitVec.ofNat 32 s.bits.length
  | .gh => BitVec.ofNat 32 s.grid.length
  | .ucnt => s.ucnt.setWidth 32
  | .rcnt => s.rcnt.setWidth 32
  | .err => s.err.setWidth 32
  | .errInfo => s.errInfo
  | .sfx0 => suffixRegister 0
  | .sfx1 => suffixRegister 1
  | .sfx2 => suffixRegister 2
  | .sfx3 => suffixRegister 3
  | .sfx4 => suffixRegister 4

/-- What CSRW does for a register number and a value; none where it fails: a register that is not
writable, or a value of `N` outside `1 .. NMAX` (R26, R201). -/
def csrWritten (idx : Byte) (imm : Half) (s : State) : Option State :=
  match csrOfNumber idx with
  | some .n => if imm.toNat < 1 ∨ Config.nMax < imm.toNat then none else some (writeN imm.toNat s)
  | some .rounds => some (writeRounds imm s)
  | _ => none

/-- A cell of one bit as a response datum: 1 is set, 0 is clear (R157, R172). -/
def bitWord (b : Bool) : Word := if b then 1 else 0

end Sys2Proof.Machine
end

