-- ==== Sys2Proof/Machine/Dense.lean ====
section
/-! DEFINITION. The dense reducer (42_dense_reducer.md R140 to R143). -/

namespace Sys2Proof.Machine

/-- The exclusive or of block `b`: cells `16*b .. 16*b + 15` (R140). -/
def foldBlock (cells : List Byte) (b : Nat) : Byte :=
  ((cells.drop (Config.block * b)).take Config.block).foldl (· ^^^ ·) 0

/-- The execute phase of DENSE: `N / 16` bytes, block 0 first (R140). -/
def foldDigest (s : State) : State :=
  { s with digest := (List.range (s.n.toNat / Config.block)).map (foldBlock s.sparse.cells) }

/-- DENSE (R140). -/
def execDense (s : State) : Result :=
  if s.n.toNat % Config.block ≠ 0 then raise .invalidSparseLength (s.n.setWidth 32) s
  else respond 0 (foldDigest s)

/-- DGET (R141). -/
def execDget (idx : Byte) (s : State) : Result :=
  respondCell (commandWord (.dget idx)) ((readCell s.digest idx.toNat).map (·.setWidth 32)) s

/-- DCLR (R142). -/
def execDclr (s : State) : Result := respond 0 { s with digest := [] }

/-- DPUSH (R143). -/
def execDpush (imm : Half) (s : State) : Result :=
  match byteOperand imm with
  | none => raise .operandRange (commandWord (.dpush imm)) s
  | some c =>
    match appendCell Config.dMax s.digest c with
    | none => raise .capacity (commandWord (.dpush imm)) s
    | some digest => respond 0 { s with digest := digest }

end Sys2Proof.Machine
end

