-- ==== Sys2Proof/Machine/Grid.lean ====
section
/-! DEFINITION. The grid memory and the used-cell count (44_bitmap_synthesizer.md R170 to R174). -/

namespace Sys2Proof.Machine

/-- The effect of GCLR (R170). -/
def clearGrid (s : State) : State := { s with grid := [] }

/-- GCLR (R170). -/
def execGclr (s : State) : Result := respond 0 (clearGrid s)

/-- The execute phase of GPUSH: `B` as a new last row, its width `BLEN` (R171). -/
def pushRow (s : State) : State := { s with grid := s.grid ++ [s.bits] }

/-- GPUSH (R171). -/
def execGpush (s : State) : Result :=
  match appendCell Config.gridH s.grid s.bits with
  | none => raise .capacity (commandWord .gpush) s
  | some _ => respond 0 (pushRow s)

/-- GGET (R172): the row before the column (R214); both give `OperandRangeError`. -/
def execGget (idx : Byte) (imm : Half) (s : State) : Result :=
  match readCell s.grid idx.toNat with
  | none => raise .operandRange (commandWord (.gget idx imm)) s
  | some row => respondCell (commandWord (.gget idx imm)) ((readCell row imm.toNat).map bitWord) s

/-- GWGET (R173): `GW[r]` is the length of row `r` (R48). -/
def execGwget (idx : Byte) (s : State) : Result :=
  respondCell (commandWord (.gwget idx))
    ((readCell s.grid idx.toNat).map fun row => BitVec.ofNat 32 row.length) s

/-- The number of set cells present (R174). -/
def usedCells (grid : List (List Bool)) : Nat := (grid.map (·.count true)).sum

/-- COUNT (R174). -/
def execCount (s : State) : Result :=
  respond (BitVec.ofNat 32 (usedCells s.grid)) { s with ucnt := BitVec.ofNat 15 (usedCells s.grid) }

end Sys2Proof.Machine
end

