-- ==== Sys2Proof/Machine/Hex.lean ====
section
/-! DEFINITION. The hex codec (43_hex_codec.md R150 to R157). -/

namespace Sys2Proof.Machine

/-- The character of a 4-bit value, `0` to `9` and `a` to `f` (R151). -/
def hexDigit (v : BitVec 4) : Byte :=
  if v.toNat ≤ 9 then BitVec.ofNat 8 (Config.digitBase + v.toNat)
  else BitVec.ofNat 8 (Config.letterBase + (v.toNat - 10))

/-- The value of a hex digit; none for every other character, the uppercase letters among them (R151). -/
def hexVal (c : Byte) : Option (BitVec 4) :=
  if Config.digitBase ≤ c.toNat ∧ c.toNat ≤ Config.digitBase + 9 then
    some (BitVec.ofNat 4 (c.toNat - Config.digitBase))
  else if Config.letterBase ≤ c.toNat ∧ c.toNat ≤ Config.letterBase + 5 then
    some (BitVec.ofNat 4 (c.toNat - Config.letterBase + 10))
  else none

/-- The two characters of a byte, the high nibble first (R62 item 2, R150). -/
def hexPair (b : Byte) : List Byte := [hexDigit (b.extractLsb' 4 4), hexDigit (b.extractLsb' 0 4)]

/-- The execute phase of HEXENC (R150). -/
def encodeHex (s : State) : State := { s with hex := s.digest.flatMap hexPair }

/-- HEXENC (R150). -/
def execHexenc (s : State) : Result := respond 0 (encodeHex s)

/-- XGET (R152). -/
def execXget (idx : Byte) (s : State) : Result :=
  respondCell (commandWord (.xget idx)) ((readCell s.hex idx.toNat).map (·.setWidth 32)) s

/-- XCLR (R153). -/
def execXclr (s : State) : Result := respond 0 { s with hex := [] }

/-- XPUSH (R154): the character is not checked. -/
def execXpush (imm : Half) (s : State) : Result :=
  match byteOperand imm with
  | none => raise .operandRange (commandWord (.xpush imm)) s
  | some c =>
    match appendCell Config.xMax s.hex c with
    | none => raise .capacity (commandWord (.xpush imm)) s
    | some hex => respond 0 { s with hex := hex }

/-- The bits of a digit, most significant first (R62 item 3, R155). -/
def nibbleBits (v : BitVec 4) : List Bool := [v.getLsbD 3, v.getLsbD 2, v.getLsbD 1, v.getLsbD 0]

/-- The bits of a character. The check phase of HEXDEC lets only hex digits reach it; another character
has no value and gives no bit. -/
def charBits (c : Byte) : List Bool :=
  match hexVal c with
  | some v => nibbleBits v
  | none => []

/-- The first character that is not a hex digit, with its index (R155, check phase). -/
def firstNonHex (hex : List Byte) : Option (Byte × Nat) :=
  hex.zipIdx.find? fun e => (hexVal e.1).isNone

/-- The info of a failed HEXDEC: the index in bits 15:8, the character in bits 7:0 (R155). -/
def hexInfo (e : Byte × Nat) : Word := 0#16 ++ BitVec.ofNat 8 e.2 ++ e.1

/-- The execute phase of HEXDEC (R155). -/
def decodeHex (s : State) : State := { s with bits := s.hex.flatMap charBits }

/-- HEXDEC (R155). -/
def execHexdec (s : State) : Result :=
  match firstNonHex s.hex with
  | some e => raise .invalidHexChar (hexInfo e) s
  | none => respond 0 (decodeHex s)

/-- BGET (R157). -/
def execBget (idx : Byte) (s : State) : Result :=
  respondCell (commandWord (.bget idx)) ((readCell s.bits idx.toNat).map bitWord) s

end Sys2Proof.Machine
end

