-- ==== Sys2Proof/Machine/LengthList.lean ====
section
/-! DEFINITION. The seed buffer, the Length List and its derivation (41_round_runner.md R120 to R128). -/

namespace Sys2Proof.Machine

/-- SEEDCLR (R120). -/
def execSeedclr (s : State) : Result := respond 0 { s with seed := [] }

/-- SEEDPUSH (R121): the operand's range before the buffer's room (R214). -/
def execSeedpush (imm : Half) (s : State) : Result :=
  match byteOperand imm with
  | none => raise .operandRange (commandWord (.seedpush imm)) s
  | some c =>
    match appendCell Config.seedMax s.seed c with
    | none => raise .capacity (commandWord (.seedpush imm)) s
    | some seed => respond 0 { s with seed := seed }

/-- SEEDGET (R122). -/
def execSeedget (idx : Byte) (s : State) : Result :=
  respondCell (commandWord (.seedget idx)) ((readCell s.seed idx.toNat).map (·.setWidth 32)) s

/-- LCLR (R123). -/
def execLclr (s : State) : Result := respond 0 { s with lens := [] }

/-- LPUSH (R124): every 16-bit value is stored. -/
def execLpush (imm : Half) (s : State) : Result :=
  match appendCell Config.lMax s.lens imm with
  | none => raise .capacity (commandWord (.lpush imm)) s
  | some lens => respond 0 { s with lens := lens }

/-- LGET (R125). -/
def execLget (idx : Byte) (s : State) : Result :=
  respondCell (commandWord (.lget idx)) ((readCell s.lens idx.toNat).map (·.setWidth 32)) s

/-- The character codes and then the suffix, each as a Length List entry (R127). -/
def lengthsOf (chars : List Byte) : List Half := (chars ++ Config.suffix).map (·.setWidth 16)

/-- The character code of a decimal digit (R90). -/
def decimalDigit (d : Nat) : Byte := BitVec.ofNat 8 (Config.digitBase + d)

/-- The decimal digits of a row number `0 .. 255`, most significant first, without padding (R128). -/
def rowDigits (r : Nat) : List Byte :=
  if r < 10 then [decimalDigit r]
  else if r < 100 then [decimalDigit (r / 10), decimalDigit (r % 10)]
  else [decimalDigit (r / 100), decimalDigit (r / 10 % 10), decimalDigit (r % 10)]

/-- The characters of the row string: seed, separator, row number (R128). -/
def rowString (seed : List Byte) (r : Nat) : List Byte := seed ++ Config.rowSep :: rowDigits r

/-- The effect of DERIVE (R127). -/
def deriveSeed (s : State) : State := { s with lens := lengthsOf s.seed }

/-- The effect of DERIVER for row `r` (R128). -/
def deriveRow (r : Nat) (s : State) : State := { s with lens := lengthsOf (rowString s.seed r) }

/-- DERIVE (R127). -/
def execDerive (s : State) : Result := respond 0 (deriveSeed s)

/-- DERIVER (R128). -/
def execDeriver (idx : Byte) (s : State) : Result := respond 0 (deriveRow idx.toNat s)

end Sys2Proof.Machine
end

