-- ==== Sys2Proof/Machine/Mixer.lean ====
section
/-! DEFINITION. The sparse mixer (40_sparse_mixer.md R100 to R106), the length instruction
(30_encoding.md R88) and the round runner (41_round_runner.md R130). -/

namespace Sys2Proof.Machine

/-- INIT (R100). -/
def execInit (s : State) : Result := respond 0 { s with sparse := freshSparse s.n.toNat }

/-- The info of an error of MIX: the length for `InvalidLengthError`, else the command word (R102, R210). -/
def mixInfo (imm : Half) : Error → Word
  | .invalidLength => imm.setWidth 32
  | _ => commandWord (.mix imm)

/-- MIX (R102). -/
def execMix (imm : Half) (s : State) : Result :=
  match tryMix s.n.toNat s.sparse imm with
  | .error e => raise e (mixInfo imm e) s
  | .ok p => respond 0 { s with sparse := p }

/-- The length instruction as an instruction of its own (R88, R101): MIXSTEP under its two preconditions.
It is no command, so it gives no response; where a precondition fails, the failure is the one RUN and MIX
give, with the length as info (log entry 4). -/
def execLen (v : Half) (s : State) : Result :=
  match tryMix s.n.toNat s.sparse v with
  | .error e => raise e (v.setWidth 32) s
  | .ok p => .next { s with sparse := p }

/-- SGET (R106): `S` has exactly `N` cells. -/
def execSget (idx : Byte) (s : State) : Result :=
  respondCell (commandWord (.sget idx))
    ((readCell (s.sparse.cells.take s.n.toNat) idx.toNat).map (·.setWidth 32)) s

/-- One pass over the Length List, in list order (R130). -/
def applyList (n : Nat) (lens : List Half) (p : Sparse) : Sparse := lens.foldl (mixStep n) p

/-- `k` rounds; neither the cursor nor the skip size is reset between them (R130). -/
def applyRounds (n : Nat) (lens : List Half) : Nat → Sparse → Sparse
  | 0, p => p
  | k + 1, p => applyRounds n lens k (applyList n lens p)

/-- The first entry of the Length List above `n`, with its index (R130, check phase). -/
def firstOverlong (n : Nat) (lens : List Half) : Option (Half × Nat) :=
  lens.zipIdx.find? fun e => n < e.1.toNat

/-- The execute phase of RUN (R130). -/
def runList (s : State) : State :=
  { s with sparse := applyRounds s.n.toNat s.lens s.rounds.toNat (freshSparse s.n.toNat) }

/-- The info of a failed RUN: the index in bits 31:16, the value in bits 15:0 (R130). -/
def runInfo (e : Half × Nat) : Word := BitVec.ofNat 16 e.2 ++ e.1

/-- RUN (R130): with `ROUNDS` = 0 no length is checked. -/
def execRun (s : State) : Result :=
  if s.rounds = 0 then respond 0 (runList s)
  else
    match firstOverlong s.n.toNat s.lens with
    | some e => raise .invalidLength (runInfo e) s
    | none => respond 0 (runList s)

end Sys2Proof.Machine
end

