-- ==== Sys2Proof/Machine/Pipeline.lean ====
section
/-! DEFINITION. The pipeline macros (44_bitmap_synthesizer.md R175 to R177). Each is the composition of the
execute phases of its inner commands; R176 and R177 show that none of their checks can fail. -/

namespace Sys2Proof.Machine

/-- `N <- 256` and `ROUNDS <- 64`, the first two inner commands of both macros (R176, R177). -/
def forceHashConfig (s : State) : State :=
  writeRounds (BitVec.ofNat 16 Config.hashRounds) (writeN Config.hashN s)

/-- RUN, DENSE, HEXENC (R176, R177). -/
def hashLengths (s : State) : State := encodeHex (foldDigest (runList s))

/-- HASH (R176). -/
def execHash (s : State) : Result := respond 0 (hashLengths (deriveSeed (forceHashConfig s)))

/-- The inner commands of ROWGEN for row `r` (R177). -/
def makeRow (s : State) (r : Nat) : State := pushRow (decodeHex (hashLengths (deriveRow r s)))

/-- ROWGEN (R177): rows 0 to `H - 1`, ascending. -/
def execRowgen (s : State) : Result :=
  respond 0 ((List.range Config.gridH).foldl makeRow (clearGrid (forceHashConfig s)))

end Sys2Proof.Machine
end

