-- ==== Sys2Proof/Machine/Region.lean ====
section
/-! DEFINITION. The region counter (45_region_counter.md R190 to R193): the scan with flood fill of R192,
in row-major order, the work list used last in first out (both orders are free, R193 item 5; log entry
11). -/

namespace Sys2Proof.Machine

/-- A grid cell: row, then column. -/
abbrev Coord := Nat × Nat

/-- A bit of a grid of marks or of cells; an absent one is not set. -/
def cellAt (g : List (List Bool)) (c : Coord) : Bool := (g.getD c.1 []).getD c.2 false

/-- The mark of a cell goes from Unvisited to Visited (R192). -/
def markVisited (c : Coord) (v : List (List Bool)) : List (List Bool) := v.modify c.1 (·.set c.2 true)

/-- The transient state of one flood fill: the marks and the work list `Q` (R192). -/
structure Fill where
  visited : List (List Bool)
  work : List Coord
deriving DecidableEq, Repr

/-- The neighbours up, down, left and right that lie within the grid; `y - 1` is formed only where
`1 ≤ y` (R191, R192). -/
def neighbours (ht wd : Nat) (c : Coord) : List Coord :=
  (if 1 ≤ c.1 then [(c.1 - 1, c.2)] else []) ++ (if c.1 + 1 < ht then [(c.1 + 1, c.2)] else [])
    ++ (if 1 ≤ c.2 then [(c.1, c.2 - 1)] else []) ++ (if c.2 + 1 < wd then [(c.1, c.2 + 1)] else [])

/-- Whether a cell is set and Unvisited (R192). -/
def isNew (g visited : List (List Bool)) (c : Coord) : Bool := cellAt g c && !cellAt visited c

/-- Examine one neighbour: a set, Unvisited cell is marked and put in `Q` (R192). -/
def visit (g : List (List Bool)) (f : Fill) (c : Coord) : Fill :=
  if isNew g f.visited c then { visited := markVisited c f.visited, work := c :: f.work } else f

/-- The loop `while Q is not empty`, at most `fuel` times; the marks at its end. A cell enters `Q` at most
once, so `ht * wd` turns empty it (R192). -/
def flood (g : List (List Bool)) (ht wd : Nat) : Nat → Fill → List (List Bool)
  | 0, f => f.visited
  | fuel + 1, f =>
    match f.work with
    | [] => f.visited
    | c :: rest => flood g ht wd fuel ((neighbours ht wd c).foldl (visit g) { f with work := rest })

/-- One cell of the scan: a set, Unvisited cell counts a region and starts its fill (R192). -/
def scanCell (g : List (List Bool)) (ht wd : Nat) (acc : Nat × List (List Bool)) (c : Coord) :
    Nat × List (List Bool) :=
  if isNew g acc.2 c then
    (acc.1 + 1, flood g ht wd (ht * wd) { visited := markVisited c acc.2, work := [c] })
  else acc

/-- The cells of a grid in row-major order (R192). -/
def cellsOf (ht wd : Nat) : List Coord :=
  (List.range ht).flatMap fun r => (List.range wd).map fun c => (r, c)

/-- `REGIONCOUNT` of a grid of `ht` rows and `wd` columns, as R192 computes it. -/
def regionCount (g : List (List Bool)) (ht wd : Nat) : Nat :=
  ((cellsOf ht wd).foldl (scanCell g ht wd) (0, List.replicate ht (List.replicate wd false))).1

/-- The width of row 0, 0 for an empty grid (R190). -/
def firstWidth (g : List (List Bool)) : Nat := (g.headD []).length

/-- The first row whose width differs from row 0's (R190, check phase). -/
def firstRagged (g : List (List Bool)) : Option Nat := g.findIdx? fun row => row.length ≠ firstWidth g

/-- REGION (R190). -/
def execRegion (s : State) : Result :=
  match firstRagged s.grid with
  | some r => raise .malformedGrid (BitVec.ofNat 32 r) s
  | none =>
    let cnt := regionCount s.grid s.grid.length (firstWidth s.grid)
    respond (BitVec.ofNat 32 cnt) { s with rcnt := BitVec.ofNat 14 cnt }

end Sys2Proof.Machine
end

