-- ==== Sys2Proof/Machine/System.lean ====
section
/-! DEFINITION. The system commands (46_system.md R200 to R203). -/

namespace Sys2Proof.Machine

/-- CSRR (R200). -/
def execCsrr (idx : Byte) (s : State) : Result :=
  respondCell (commandWord (.csrr idx)) ((csrOfNumber idx).map (csrValue s)) s

/-- CSRW (R201). -/
def execCsrw (idx : Byte) (imm : Half) (s : State) : Result :=
  match csrWritten idx imm s with
  | none => raise .operandRange (commandWord (.csrw idx imm)) s
  | some t => respond 0 t

/-- CLRERR (R202). -/
def execClrerr (s : State) : Result := respond 0 (clearCapture s)

/-- RESET (R203): as `RST`, but with a response. -/
def execReset (s : State) : Result := respond 0 (resetEngine s)

end Sys2Proof.Machine
end

