-- ==== Sys2Proof/Machine/Dispatch.lean ====
section
/-! DEFINITION. The meaning of every instruction, one arm per row of the opcode table. -/

namespace Sys2Proof.Machine

/-- What an instruction does (30_encoding.md R84, R88). -/
def exec (i : Instr) (s : State) : Host.Outcome State Fault Refusal :=
  match i with
  | .csrr idx => Sys2Proof.Machine.execCsrr idx s
  | .csrw idx imm => Sys2Proof.Machine.execCsrw idx imm s
  | .clrerr => Sys2Proof.Machine.execClrerr s
  | .reset => Sys2Proof.Machine.execReset s
  | .seedclr => Sys2Proof.Machine.execSeedclr s
  | .seedpush imm => Sys2Proof.Machine.execSeedpush imm s
  | .seedget idx => Sys2Proof.Machine.execSeedget idx s
  | .lclr => Sys2Proof.Machine.execLclr s
  | .lpush imm => Sys2Proof.Machine.execLpush imm s
  | .lget idx => Sys2Proof.Machine.execLget idx s
  | .derive => Sys2Proof.Machine.execDerive s
  | .deriver idx => Sys2Proof.Machine.execDeriver idx s
  | .init => Sys2Proof.Machine.execInit s
  | .mix imm => Sys2Proof.Machine.execMix imm s
  | .run => Sys2Proof.Machine.execRun s
  | .sget idx => Sys2Proof.Machine.execSget idx s
  | .dense => Sys2Proof.Machine.execDense s
  | .dget idx => Sys2Proof.Machine.execDget idx s
  | .dclr => Sys2Proof.Machine.execDclr s
  | .dpush imm => Sys2Proof.Machine.execDpush imm s
  | .hexenc => Sys2Proof.Machine.execHexenc s
  | .xget idx => Sys2Proof.Machine.execXget idx s
  | .xclr => Sys2Proof.Machine.execXclr s
  | .xpush imm => Sys2Proof.Machine.execXpush imm s
  | .hexdec => Sys2Proof.Machine.execHexdec s
  | .bget idx => Sys2Proof.Machine.execBget idx s
  | .gclr => Sys2Proof.Machine.execGclr s
  | .gpush => Sys2Proof.Machine.execGpush s
  | .gget idx imm => Sys2Proof.Machine.execGget idx imm s
  | .gwget idx => Sys2Proof.Machine.execGwget idx s
  | .count => Sys2Proof.Machine.execCount s
  | .hash => Sys2Proof.Machine.execHash s
  | .rowgen => Sys2Proof.Machine.execRowgen s
  | .region => Sys2Proof.Machine.execRegion s
  | .len v => Sys2Proof.Machine.execLen v s

end Sys2Proof.Machine
end

