-- ==== Sys2Proof/Machine/Port.lean ====
section
/-! DEFINITION. The `CMD` and `RST` ports (00_scope.md R10, R13 item 8; 70_reset_and_hazards.md R241): what
the host does next, and the failure of a word that selects no command (30_encoding.md R86). -/

namespace Sys2Proof.Machine

/-- The host's next move and the state in which the engine takes it; none where the host makes none. -/
def takeMove (s : State) : Option (HostMove × State) :=
  match s.pending with
  | [] => none
  | m :: rest => some (m, { s with pending := rest })

/-- An illegal word: `IllegalCommandError` with the word as info (R86). -/
def illegalCommand (w : Word) (s : State) : Result := raise .illegalCommand w s

/-- The effect of an assertion of `RST`: the reset state and no response (R240). -/
def assertRst (s : State) : Result := .next (resetEngine s)

/-- With no move of the host the engine is idle and keeps all state (R230, R240). -/
def idle (s : State) : Result := .next s

/-- The host's next move is the command word `w`. -/
def presentCommand (w : Word) (s : State) : State := { s with pending := .command w :: s.pending }

/-- The Length List is the one length instruction `v`, one round is asked for, and the host's next move is
RUN, which is how the engine executes a length instruction (R88, R130; log entry 5). -/
def presentLength (v : Half) (s : State) : State :=
  presentCommand (commandWord .run) { s with lens := [v], rounds := 1 }

end Sys2Proof.Machine
end

