-- ==== Sys2Proof/Machine/Step.lean ====
section
/-! DEFINITION. One step: one move of the host, taken atomically (00_scope.md R11, R13). -/

namespace Sys2Proof.Machine

/-- The engine's step: an assertion of `RST`, or one command decoded and executed (R85), or nothing. -/
def step (s : State) : Host.Outcome State Fault Refusal :=
  match takeMove s with
  | none => idle s
  | some (.rst, t) => assertRst t
  | some (.command w, t) =>
    match decode (.command w) with
    | .ok i => exec i t
    | .error _ => illegalCommand w t

/-- `s` with an instruction where the next step takes it: a 32-bit row is the host's next command word; a
16-bit row is the one entry of the Length List, with RUN as the next command (log entry 5). -/
def State.withFetchWord (s : State) (nbits w : Nat) : State :=
  if nbits = 16 then presentLength (BitVec.ofNat 16 w) s else presentCommand (BitVec.ofNat 32 w) s

end Sys2Proof.Machine
end

