-- ==== Sys2Proof/Safety.lean ====
section
/-! DEFINITION. What counts as a legal state and as a safe run of the engine, and the terms in which the
statements speak of a command's outcome. -/

namespace Sys2Proof.Machine

/-- A legal sparse state of length `n`: the length is in range (R26), the cells hold a permutation of
`0 .. n-1` (R24), and the cursor is a position (R22). -/
structure SparseLegal (n : Nat) (p : Sparse) : Prop where
  length_pos : 1 ≤ n
  length_le : n ≤ 256
  perm : (p.cells.map BitVec.toNat).Perm (List.range n)
  pos_lt : p.pos.toNat < n

/-- A legal state: every register holds a value that the map of R42 calls legal and every space is in its
canonical form (R20, R24, R39, R48). The range of `RCNT` stands apart, in `RegionCountInRange`. -/
structure Legal (s : State) : Prop where
  sparse : SparseLegal s.n.toNat s.sparse
  spaces : Memory.wf s = true
  ucnt_le : s.ucnt.toNat ≤ 16384
  err_code : s.err.toNat ∈ [0x00, 0x01, 0x02, 0x03, 0x04, 0x10, 0x11, 0x12, 0x13]
  info_clear : s.err = 0 → s.errInfo = 0

/-- `RCNT` is at most `H * W / 2` (R37). -/
def RegionCountInRange (s : State) : Prop := s.rcnt.toNat ≤ 8192

/-- `i` succeeds in `s`: it responds `(0x00, data)` and leaves the state `t` but for the response. -/
def Answers (i : Instr) (s : State) (data : Word) (t : State) : Prop :=
  exec i s = .next { t with rsp := some ⟨0x00, data⟩ }

/-- The state after a failed command: nothing changes but the response and, where `ERR` was 0, the
capture (R215). -/
def afterFailure (code : Byte) (info : Word) (s : State) : State :=
  { s with
    err := if s.err = 0 then code else s.err
    errInfo := if s.err = 0 then info else s.errInfo
    rsp := some ⟨code, info⟩ }

/-- `i` fails in `s` with this code and info (R215). -/
def FailsWith (i : Instr) (s : State) (code : Byte) (info : Word) : Prop :=
  exec i s = .next (afterFailure code info s)

/-- The instructions of a list one after another, stopping at the first fault or refusal. -/
def execAll : List Instr → State → Result
  | [], s => .next s
  | i :: rest, s =>
    match exec i s with
    | .next t => execAll rest t
    | .fault r => .fault r
    | .refused r => .refused r

/-- The document's mixing step in words of single cells (R101): `q` is what one length instruction `len`
makes of `p` when the sequence length is `n`. -/
structure IsMixStep (n : Nat) (len : Half) (p q : Sparse) : Prop where
  length_eq : q.cells.length = n
  reversed : ∀ i < len.toNat,
    q.cells[(p.pos.toNat + i) % n]? = p.cells[(p.pos.toNat + len.toNat - 1 - i) % n]?
  kept : ∀ i, len.toNat ≤ i → i < n →
    q.cells[(p.pos.toNat + i) % n]? = p.cells[(p.pos.toNat + i) % n]?
  pos_eq : q.pos.toNat = (p.pos.toNat + len.toNat + p.skip.toNat) % n
  skip_eq : q.skip.toNat = p.skip.toNat + 1

/-- A run of `k` steps is safe: it comes to its end, and in a legal state. -/
def SafeRun (k : Nat) (s : State) : Prop := ∃ t, Sys2Proof.core.run k s = .next t ∧ Legal t

end Sys2Proof.Machine
end

