-- ==== Sys2Proof/WellFormed.lean ====
section
/-! DEFINITION. Well-formed instructions: the part of the operand ranges of 30_encoding.md R83 that no
state can widen. Every `Instr` has an encoding and is decoded from it; an ill-formed one is still a
command, and every legal state answers it with an error response (R83, R210). -/

namespace Sys2Proof

/-- The operand is one that some legal state of the engine accepts (R83; the capacities of R6 bound the
lengths that R83 names). -/
def WellFormed : Instr → Bool
  | .csrr idx => idx.toNat ≤ 0x0D || (0x10 ≤ idx.toNat && idx.toNat ≤ 0x14)
  | .csrw idx imm => (idx.toNat = 0 && 1 ≤ imm.toNat && imm.toNat ≤ Config.nMax) || idx.toNat = 1
  | .seedpush imm | .dpush imm | .xpush imm => imm.toNat ≤ 255
  | .seedget idx => idx.toNat < Config.seedMax
  | .dget idx => idx.toNat < Config.dMax
  | .xget idx => idx.toNat < Config.xMax
  | .bget idx => idx.toNat < Config.gridW
  | .gget idx imm => idx.toNat < Config.gridH && imm.toNat < Config.gridW
  | .gwget idx => idx.toNat < Config.gridH
  | .mix imm => imm.toNat ≤ Config.nMax
  | .len v => v.toNat ≤ Config.nMax
  | .clrerr | .reset | .seedclr | .lclr | .lpush _ | .lget _ | .derive | .deriver _ | .init | .run
  | .sget _ | .dense | .dclr | .hexenc | .xclr | .hexdec | .gclr | .gpush | .count | .hash | .rowgen
  | .region => true

end Sys2Proof
end

