-- ==== Sys2Proof/Certificates/Slice0/Obligations.lean ====
section
/-! DEFINITION. The statements for the provers. Each docstring names the rules of spec/ it formalises, or
says what it rests on. Where a statement is about a command's outcome it gives the whole next state: what
the written-out update does not name is unchanged. The host's moves and the `RSP` port stand in two fields of
the model's own: log entries 1 and 2. -/

open Sys2Proof Sys2Proof.Machine

/-! ### Terms of the statements -/

namespace Sys2Proof.Certificates

/-- The `match` and `mask` columns of 30_encoding.md R84, written out. -/
def commandRows : List (Word × Word) :=
  [(0x01000000, 0xFF00FFFF), (0x02000000, 0xFF000000), (0x03000000, 0xFFFFFFFF), (0x04000000, 0xFFFFFFFF),
   (0x10000000, 0xFFFFFFFF), (0x11000000, 0xFFFF0000), (0x12000000, 0xFF00FFFF), (0x14000000, 0xFFFFFFFF),
   (0x15000000, 0xFFFF0000), (0x16000000, 0xFF00FFFF), (0x18000000, 0xFFFFFFFF), (0x19000000, 0xFF00FFFF),
   (0x20000000, 0xFFFFFFFF), (0x21000000, 0xFFFF0000), (0x22000000, 0xFFFFFFFF), (0x23000000, 0xFF00FFFF),
   (0x30000000, 0xFFFFFFFF), (0x31000000, 0xFF00FFFF), (0x32000000, 0xFFFFFFFF), (0x33000000, 0xFFFF0000),
   (0x40000000, 0xFFFFFFFF), (0x41000000, 0xFF00FFFF), (0x42000000, 0xFFFFFFFF), (0x43000000, 0xFFFF0000),
   (0x44000000, 0xFFFFFFFF), (0x45000000, 0xFF00FFFF), (0x50000000, 0xFFFFFFFF), (0x51000000, 0xFFFFFFFF),
   (0x52000000, 0xFF000000), (0x53000000, 0xFF00FFFF), (0x54000000, 0xFFFFFFFF), (0x58000000, 0xFFFFFFFF),
   (0x59000000, 0xFFFFFFFF), (0x60000000, 0xFFFFFFFF)]

/-- A word that encodes a command of R84: `(w and mask) = match` for one of its rows (R82). -/
def IsCommand (w : Word) : Prop := ∃ row ∈ commandRows, w &&& row.2 = row.1

/-- A command word from its three fields (R81). -/
def wordOf (op : Byte) (idx : Byte) (imm : Half) : Word := op ++ idx ++ imm

/-- A word with this opcode and a nonzero `idx` is an illegal command (R85, R86). -/
def IdxMustBeZero (op : Byte) : Prop :=
  ∀ (s : State) (w : Word) (rest : List HostMove), s.pending = .command w :: rest →
    w.extractLsb' 24 8 = op → w.extractLsb' 16 8 ≠ 0 →
    step s = .next (afterFailure 0x10 w { s with pending := rest })

/-- A word with this opcode and a nonzero `imm` is an illegal command (R85, R86). -/
def ImmMustBeZero (op : Byte) : Prop :=
  ∀ (s : State) (w : Word) (rest : List HostMove), s.pending = .command w :: rest →
    w.extractLsb' 24 8 = op → w.extractLsb' 0 16 ≠ 0 →
    step s = .next (afterFailure 0x10 w { s with pending := rest })

/-- A word with this opcode and any nonzero operand field is an illegal command (R85, R86). -/
def OperandsMustBeZero (op : Byte) : Prop := IdxMustBeZero op ∧ ImmMustBeZero op

/-- The sixteen hex characters (R151). -/
def hexAlphabet : List Char := "0123456789abcdef".toList

/-- The code of the hex character for `v` below 16 (R151, R90; log entry 12, PRESUMED). -/
def hexCode (v : Nat) : Byte := BitVec.ofNat 8 (hexAlphabet.getD v '0').toNat

/-- A cell of the grid that is present and set (R191). -/
def SetCell (g : List (List Bool)) : Type := { p : Nat × Nat // (g[p.1]?.bind (·[p.2]?)) = some true }

/-- The four neighbours up, down, left and right (R191). -/
def Adjacent (p q : Nat × Nat) : Prop :=
  (p.1 = q.1 ∧ (p.2 + 1 = q.2 ∨ q.2 + 1 = p.2)) ∨ (p.2 = q.2 ∧ (p.1 + 1 = q.1 ∨ q.1 + 1 = p.1))

/-- The regions of a grid: the classes of its set cells under chains of adjacent set cells (R191). -/
def Regions (g : List (List Bool)) : Type := Quot fun a b : SetCell g => Adjacent a.val b.val

/-- The document's own machine: a backing array turned so that position 0 is the cursor, the skip size and
the total shift (40_sparse_mixer.md R104). -/
structure Rotating where
  backing : List Byte
  skip : Nat
  shift : Nat

/-- One length instruction on it: reverse the first `len` elements, turn left, count (R104). -/
def Rotating.mix (n : Nat) (m : Rotating) (len : Half) : Rotating where
  backing := ((m.backing.take len.toNat).reverse ++ m.backing.drop len.toNat).rotateLeft
    ((len.toNat + m.skip) % n)
  skip := m.skip + 1
  shift := m.shift + (len.toNat + m.skip) % n

/-- It starts from the identity with nothing turned (R104). -/
def Rotating.start (n : Nat) : Rotating := ⟨(List.range n).map (BitVec.ofNat 8), 0, 0⟩

/-- The commands `INIT`, then `MIX` for each entry of the list, `k` times (41_round_runner.md R131). -/
def initThenMix (lens : List Half) (k : Nat) : List Instr :=
  .init :: (List.replicate k lens).flatten.map .mix

/-- As `initThenMix`, with length instructions in place of MIX. -/
def initThenLen (lens : List Half) (k : Nat) : List Instr :=
  .init :: (List.replicate k lens).flatten.map .len

/-- The inner commands of HASH (44_bitmap_synthesizer.md R176). -/
def hashSequence : List Instr := [.csrw 0x00 256, .csrw 0x01 64, .derive, .run, .dense, .hexenc]

/-- The inner commands of ROWGEN for row `r` (R177). -/
def rowSequence (r : Nat) : List Instr :=
  [.deriver (BitVec.ofNat 8 r), .run, .dense, .hexenc, .hexdec, .gpush]

/-- The inner commands of ROWGEN (R177). -/
def rowgenSequence : List Instr :=
  [.csrw 0x00 256, .csrw 0x01 64, .gclr] ++ (List.range 128).flatMap rowSequence

/-- The legal error codes of R210. -/
def errorCodes : List Byte := [0x01, 0x02, 0x03, 0x04, 0x10, 0x11, 0x12, 0x13]

end Sys2Proof.Certificates

open Sys2Proof.Certificates

/-! ### Encoding -/

/-- Decoding the code of an instruction gives it back, for every instruction and every operand, the
well-formed ones among them. Rests on 30_encoding.md sections 1 to 3 and 6. -/
def Obligations.DecodeInvertsEncode : Prop := ∀ i : Instr, decode (encode i) = .ok i

/-- Every unit of code that decodes is the code of what it decodes to: an instruction has one encoding.
Rests on 30_encoding.md sections 1 to 3 and 6. -/
def Obligations.EncodeInvertsDecode : Prop := ∀ (c : Code) (i : Instr), decode c = .ok i → encode i = c

/-- A word selects the command of a row of R84 exactly when `(w and mask) = match` (R82), row by row. -/
def Obligations.DecodeFollowsMatchAndMask : Prop :=
  ∀ w : Word,
    ((∃ idx, decode (.command w) = .ok (.csrr idx)) ↔ w &&& 0xFF00FFFF = 0x01000000) ∧
    ((∃ idx imm, decode (.command w) = .ok (.csrw idx imm)) ↔ w &&& 0xFF000000 = 0x02000000) ∧
    (decode (.command w) = .ok .clrerr ↔ w &&& 0xFFFFFFFF = 0x03000000) ∧
    (decode (.command w) = .ok .reset ↔ w &&& 0xFFFFFFFF = 0x04000000) ∧
    (decode (.command w) = .ok .seedclr ↔ w &&& 0xFFFFFFFF = 0x10000000) ∧
    ((∃ imm, decode (.command w) = .ok (.seedpush imm)) ↔ w &&& 0xFFFF0000 = 0x11000000) ∧
    ((∃ idx, decode (.command w) = .ok (.seedget idx)) ↔ w &&& 0xFF00FFFF = 0x12000000) ∧
    (decode (.command w) = .ok .lclr ↔ w &&& 0xFFFFFFFF = 0x14000000) ∧
    ((∃ imm, decode (.command w) = .ok (.lpush imm)) ↔ w &&& 0xFFFF0000 = 0x15000000) ∧
    ((∃ idx, decode (.command w) = .ok (.lget idx)) ↔ w &&& 0xFF00FFFF = 0x16000000) ∧
    (decode (.command w) = .ok .derive ↔ w &&& 0xFFFFFFFF = 0x18000000) ∧
    ((∃ idx, decode (.command w) = .ok (.deriver idx)) ↔ w &&& 0xFF00FFFF = 0x19000000) ∧
    (decode (.command w) = .ok .init ↔ w &&& 0xFFFFFFFF = 0x20000000) ∧
    ((∃ imm, decode (.command w) = .ok (.mix imm)) ↔ w &&& 0xFFFF0000 = 0x21000000) ∧
    (decode (.command w) = .ok .run ↔ w &&& 0xFFFFFFFF = 0x22000000) ∧
    ((∃ idx, decode (.command w) = .ok (.sget idx)) ↔ w &&& 0xFF00FFFF = 0x23000000) ∧
    (decode (.command w) = .ok .dense ↔ w &&& 0xFFFFFFFF = 0x30000000) ∧
    ((∃ idx, decode (.command w) = .ok (.dget idx)) ↔ w &&& 0xFF00FFFF = 0x31000000) ∧
    (decode (.command w) = .ok .dclr ↔ w &&& 0xFFFFFFFF = 0x32000000) ∧
    ((∃ imm, decode (.command w) = .ok (.dpush imm)) ↔ w &&& 0xFFFF0000 = 0x33000000) ∧
    (decode (.command w) = .ok .hexenc ↔ w &&& 0xFFFFFFFF = 0x40000000) ∧
    ((∃ idx, decode (.command w) = .ok (.xget idx)) ↔ w &&& 0xFF00FFFF = 0x41000000) ∧
    (decode (.command w) = .ok .xclr ↔ w &&& 0xFFFFFFFF = 0x42000000) ∧
    ((∃ imm, decode (.command w) = .ok (.xpush imm)) ↔ w &&& 0xFFFF0000 = 0x43000000) ∧
    (decode (.command w) = .ok .hexdec ↔ w &&& 0xFFFFFFFF = 0x44000000) ∧
    ((∃ idx, decode (.command w) = .ok (.bget idx)) ↔ w &&& 0xFF00FFFF = 0x45000000) ∧
    (decode (.command w) = .ok .gclr ↔ w &&& 0xFFFFFFFF = 0x50000000) ∧
    (decode (.command w) = .ok .gpush ↔ w &&& 0xFFFFFFFF = 0x51000000) ∧
    ((∃ idx imm, decode (.command w) = .ok (.gget idx imm)) ↔ w &&& 0xFF000000 = 0x52000000) ∧
    ((∃ idx, decode (.command w) = .ok (.gwget idx)) ↔ w &&& 0xFF00FFFF = 0x53000000) ∧
    (decode (.command w) = .ok .count ↔ w &&& 0xFFFFFFFF = 0x54000000) ∧
    (decode (.command w) = .ok .hash ↔ w &&& 0xFFFFFFFF = 0x58000000) ∧
    (decode (.command w) = .ok .rowgen ↔ w &&& 0xFFFFFFFF = 0x59000000) ∧
    (decode (.command w) = .ok .region ↔ w &&& 0xFFFFFFFF = 0x60000000)

/-- Words of the spec's examples, words assembled from its encoding tables and one length instruction decode to
what they stand for. Rests on 30_encoding.md sections 1 to 3, 6 and 9 and 95_test_vectors.md section 2.1. -/
def Obligations.ExampleWordsDecode : Prop :=
  decode (.command 0x52000007) = .ok (.gget 0 7) ∧
  decode (.command 0x02000005) = .ok (.csrw 0 5) ∧
  decode (.command 0x02000100) = .ok (.csrw 0 256) ∧
  decode (.command 0x21000100) = .ok (.mix 256) ∧
  decode (.command 0x527F007F) = .ok (.gget 127 127) ∧
  decode (.command 0x197F0000) = .ok (.deriver 127) ∧
  decode (.command 0x1500FFFF) = .ok (.lpush 65535) ∧
  decode (.command 0x330000A2) = .ok (.dpush 0xA2) ∧
  decode (.command 0x410F0000) = .ok (.xget 15) ∧
  decode (.command 0x60000000) = .ok .region ∧
  decode (.length 0x0105) = .ok (.len 261)

/-! ### The step -/

/-- When the host's next move is a command word that decodes, the step is `exec` of the decoded instruction
with that move taken. Rests on 00_scope.md sections 7 and 8 and on log entry 1. -/
def Obligations.StepRunsTheDecodedCommand : Prop :=
  ∀ (s : State) (w : Word) (rest : List HostMove) (i : Instr),
    s.pending = .command w :: rest → decode (.command w) = .ok i →
    step s = exec i { s with pending := rest }

/-- A word that no row of R84 matches fails with `IllegalCommandError`, code 0x10 and the word as info,
and changes nothing else (R86). -/
def Obligations.IllegalWordFailsAlone : Prop :=
  ∀ (s : State) (w : Word) (rest : List HostMove),
    s.pending = .command w :: rest → ¬ IsCommand w →
    step s = .next (afterFailure 0x10 w { s with pending := rest })

/-- `RST` puts every piece of state at its reset value and gives no response. Rests on 70_reset_and_hazards.md
section 1; the moves the host has yet to make stay (log entry 1) and no response stands (log entry 2), which
is the model's choice. -/
def Obligations.RstGivesTheResetState : Prop :=
  ∀ (s : State) (rest : List HostMove), s.pending = .rst :: rest →
    ∃ t, step s = .next t ∧ t.n.toNat = 256 ∧ t.rounds.toNat = 64 ∧ t.sparse.cells.length = 256 ∧
      (∀ j < 256, t.sparse.cells[j]? = some (BitVec.ofNat 8 j)) ∧ t.sparse.pos = 0 ∧ t.sparse.skip = 0 ∧
      t.seed = [] ∧ t.lens = [] ∧ t.digest = [] ∧ t.hex = [] ∧ t.bits = [] ∧ t.grid = [] ∧
      t.ucnt = 0 ∧ t.rcnt = 0 ∧ t.err = 0 ∧ t.errInfo = 0 ∧ t.rsp = none ∧ t.pending = rest

/-- The reset state holds what R47 lists. -/
def Obligations.ResetStateHoldsTheListedValues : Prop :=
  State.reset.n.toNat = 256 ∧ State.reset.rounds.toNat = 64 ∧ State.reset.sparse.cells.length = 256 ∧
  (∀ j < 256, State.reset.sparse.cells[j]? = some (BitVec.ofNat 8 j)) ∧ State.reset.sparse.pos = 0 ∧
  State.reset.sparse.skip = 0 ∧ State.reset.seed = [] ∧ State.reset.lens = [] ∧ State.reset.digest = [] ∧
  State.reset.hex = [] ∧ State.reset.bits = [] ∧ State.reset.grid = [] ∧ State.reset.ucnt = 0 ∧
  State.reset.rcnt = 0 ∧ State.reset.err = 0 ∧ State.reset.errInfo = 0 ∧
  Answers (.csrr 0x10) State.reset 17 State.reset ∧
  Answers (.csrr 0x11) State.reset 31 State.reset ∧
  Answers (.csrr 0x12) State.reset 73 State.reset ∧
  Answers (.csrr 0x13) State.reset 47 State.reset ∧
  Answers (.csrr 0x14) State.reset 23 State.reset

/-- Between the host's moves the engine is idle and keeps all state. The model's choice of an idle step is
log entry 3; it rests on 60_exceptions.md section 8 ("keeps all state"). -/
def Obligations.IdleEngineKeepsAllState : Prop := ∀ s : State, s.pending = [] → step s = .next s

/-- A command gives exactly one response: the step always answers a next state, the move is taken, and
`RSP` holds either success or a failure with a code of R210. Rests on 00_scope.md section 7 and
60_exceptions.md section 1. -/
def Obligations.EveryCommandGetsOneResponse : Prop :=
  ∀ (s : State) (w : Word) (rest : List HostMove), s.pending = .command w :: rest →
    ∃ t r, step s = .next t ∧ t.pending = rest ∧ t.rsp = some r ∧
      (r.status = 0x00 ∨ r.status ∈ errorCodes)

/-- Any number of steps from any state runs to its end: the engine is never stuck. Rests on
70_reset_and_hazards.md section 3 (R250, less its bounds on the work inside one command). -/
def Obligations.EveryRunComesToItsEnd : Prop :=
  ∀ (k : Nat) (s : State), ∃ t, Sys2Proof.core.run k s = .next t

/-! ### System commands -/

/-- CSRR reads every defined register, zero-extended, and fails on every other number (R200). -/
def Obligations.CsrrReadsEveryRegister : Prop :=
  ImmMustBeZero 0x01 ∧ ∀ s : State,
    Answers (.csrr 0x00) s (s.n.setWidth 32) s ∧
    Answers (.csrr 0x01) s (s.rounds.setWidth 32) s ∧
    Answers (.csrr 0x02) s (s.sparse.pos.setWidth 32) s ∧
    Answers (.csrr 0x03) s s.sparse.skip s ∧
    Answers (.csrr 0x04) s (BitVec.ofNat 32 s.seed.length) s ∧
    Answers (.csrr 0x05) s (BitVec.ofNat 32 s.lens.length) s ∧
    Answers (.csrr 0x06) s (BitVec.ofNat 32 s.digest.length) s ∧
    Answers (.csrr 0x07) s (BitVec.ofNat 32 s.hex.length) s ∧
    Answers (.csrr 0x08) s (BitVec.ofNat 32 s.bits.length) s ∧
    Answers (.csrr 0x09) s (BitVec.ofNat 32 s.grid.length) s ∧
    Answers (.csrr 0x0A) s (s.ucnt.setWidth 32) s ∧
    Answers (.csrr 0x0B) s (s.rcnt.setWidth 32) s ∧
    Answers (.csrr 0x0C) s (s.err.setWidth 32) s ∧
    Answers (.csrr 0x0D) s s.errInfo s ∧
    Answers (.csrr 0x10) s 17 s ∧
    Answers (.csrr 0x11) s 31 s ∧
    Answers (.csrr 0x12) s 73 s ∧
    Answers (.csrr 0x13) s 47 s ∧
    Answers (.csrr 0x14) s 23 s ∧
    ∀ idx : Byte, (idx = 0x0E ∨ idx = 0x0F ∨ 0x15 ≤ idx.toNat) →
      FailsWith (.csrr idx) s 0x11 (wordOf 0x01 idx 0)

/-- CSRW writes `N` with a value in `1 .. 256` and re-initialises the sparse state, writes `ROUNDS` with any
value, and fails on every other value of `N` and every other register number (R201). -/
def Obligations.CsrwWritesNOrRounds : Prop :=
  ∀ (s : State) (imm : Half),
    (1 ≤ imm.toNat → imm.toNat ≤ 256 →
      ∃ p : Sparse, Answers (.csrw 0x00 imm) s 0 { s with n := BitVec.ofNat 9 imm.toNat, sparse := p } ∧
        p.cells.length = imm.toNat ∧ (∀ j < imm.toNat, p.cells[j]? = some (BitVec.ofNat 8 j)) ∧
        p.pos = 0 ∧ p.skip = 0) ∧
    ((imm.toNat = 0 ∨ 256 < imm.toNat) → FailsWith (.csrw 0x00 imm) s 0x11 (wordOf 0x02 0x00 imm)) ∧
    Answers (.csrw 0x01 imm) s 0 { s with rounds := imm } ∧
    ∀ idx : Byte, 2 ≤ idx.toNat → FailsWith (.csrw idx imm) s 0x11 (wordOf 0x02 idx imm)

/-- CLRERR clears `ERR` and `ERRINFO` and nothing else (R202). -/
def Obligations.ClrerrClearsOnlyTheCapture : Prop :=
  OperandsMustBeZero 0x03 ∧ ∀ s : State, Answers .clrerr s 0 { s with err := 0, errInfo := 0 }

/-- RESET leaves what `RST` leaves, and responds. Rests on 46_system.md and 70_reset_and_hazards.md section 1;
that the moves the host has yet to make stay is the model's choice, log entry 1. -/
def Obligations.ResetCommandIsRstWithAResponse : Prop :=
  OperandsMustBeZero 0x04 ∧ ∀ (s : State) (rest : List HostMove),
    Answers .reset s 0 { State.reset with pending := s.pending } ∧
    ∀ t, s.pending = .rst :: rest → step s = .next t →
      exec .reset { s with pending := rest } = .next { t with rsp := some ⟨0x00, 0⟩ }

/-! ### Single-cell reads, appends and clears -/

/-- SEEDGET, LGET, DGET, XGET and BGET respond with the present cell, zero-extended, and change nothing else;
at or beyond the length they fail with `OperandRangeError` and the command word (R122, R125, R141, R152,
R157). -/
def Obligations.BufferReadsAnswerPresentCellsOnly : Prop :=
  (ImmMustBeZero 0x12 ∧ ImmMustBeZero 0x16 ∧ ImmMustBeZero 0x31 ∧ ImmMustBeZero 0x41 ∧ ImmMustBeZero 0x45) ∧
  ∀ (s : State) (idx : Byte),
    (∀ v, s.seed[idx.toNat]? = some v → Answers (.seedget idx) s (v.setWidth 32) s) ∧
    (s.seed.length ≤ idx.toNat → FailsWith (.seedget idx) s 0x11 (wordOf 0x12 idx 0)) ∧
    (∀ v, s.lens[idx.toNat]? = some v → Answers (.lget idx) s (v.setWidth 32) s) ∧
    (s.lens.length ≤ idx.toNat → FailsWith (.lget idx) s 0x11 (wordOf 0x16 idx 0)) ∧
    (∀ v, s.digest[idx.toNat]? = some v → Answers (.dget idx) s (v.setWidth 32) s) ∧
    (s.digest.length ≤ idx.toNat → FailsWith (.dget idx) s 0x11 (wordOf 0x31 idx 0)) ∧
    (∀ v, s.hex[idx.toNat]? = some v → Answers (.xget idx) s (v.setWidth 32) s) ∧
    (s.hex.length ≤ idx.toNat → FailsWith (.xget idx) s 0x11 (wordOf 0x41 idx 0)) ∧
    (∀ v, s.bits[idx.toNat]? = some v → Answers (.bget idx) s (if v then 1 else 0) s) ∧
    (s.bits.length ≤ idx.toNat → FailsWith (.bget idx) s 0x11 (wordOf 0x45 idx 0))

/-- SGET reads `S` by logical position, whatever the cursor is, and fails at or beyond `N` (R106). -/
def Obligations.SgetReadsByLogicalPosition : Prop :=
  ImmMustBeZero 0x23 ∧ ∀ (s : State) (idx : Byte), Legal s →
    (∀ v, s.sparse.cells[idx.toNat]? = some v → Answers (.sget idx) s (v.setWidth 32) s) ∧
    (idx.toNat < s.n.toNat → ∃ v, s.sparse.cells[idx.toNat]? = some v) ∧
    (s.n.toNat ≤ idx.toNat → FailsWith (.sget idx) s 0x11 (wordOf 0x23 idx 0))

/-- GGET reads a present cell and fails on an absent row or column (R172). -/
def Obligations.GgetReadsAPresentCell : Prop :=
  ∀ (s : State) (idx : Byte) (imm : Half),
    (∀ row v, s.grid[idx.toNat]? = some row → row[imm.toNat]? = some v →
      Answers (.gget idx imm) s (if v then 1 else 0) s) ∧
    (s.grid.length ≤ idx.toNat → FailsWith (.gget idx imm) s 0x11 (wordOf 0x52 idx imm)) ∧
    (∀ row, s.grid[idx.toNat]? = some row → row.length ≤ imm.toNat →
      FailsWith (.gget idx imm) s 0x11 (wordOf 0x52 idx imm))

/-- GWGET reads the width of a present row and fails on an absent one (R173). -/
def Obligations.GwgetReadsTheRowWidth : Prop :=
  ImmMustBeZero 0x53 ∧ ∀ (s : State) (idx : Byte),
    (∀ row, s.grid[idx.toNat]? = some row →
      Answers (.gwget idx) s (BitVec.ofNat 32 row.length) s) ∧
    (s.grid.length ≤ idx.toNat → FailsWith (.gwget idx) s 0x11 (wordOf 0x53 idx 0))

/-- SEEDPUSH appends a byte; above 255 it fails on the range, and on a full buffer on the capacity, the
range first (R121). -/
def Obligations.SeedpushAppendsOneCharacter : Prop :=
  IdxMustBeZero 0x11 ∧ ∀ (s : State) (imm : Half),
    (imm.toNat ≤ 255 → s.seed.length < 240 →
      Answers (.seedpush imm) s 0 { s with seed := s.seed ++ [BitVec.ofNat 8 imm.toNat] }) ∧
    (255 < imm.toNat → FailsWith (.seedpush imm) s 0x11 (wordOf 0x11 0 imm)) ∧
    (imm.toNat ≤ 255 → 240 ≤ s.seed.length → FailsWith (.seedpush imm) s 0x12 (wordOf 0x11 0 imm))

/-- LPUSH appends any 16-bit value and fails only on a full list (R124). -/
def Obligations.LpushAppendsAnyValue : Prop :=
  IdxMustBeZero 0x15 ∧ ∀ (s : State) (imm : Half),
    (s.lens.length < 256 → Answers (.lpush imm) s 0 { s with lens := s.lens ++ [imm] }) ∧
    (256 ≤ s.lens.length → FailsWith (.lpush imm) s 0x12 (wordOf 0x15 0 imm))

/-- DPUSH appends a byte to the digest; range before capacity (R143). -/
def Obligations.DpushAppendsOneByte : Prop :=
  IdxMustBeZero 0x33 ∧ ∀ (s : State) (imm : Half),
    (imm.toNat ≤ 255 → s.digest.length < 16 →
      Answers (.dpush imm) s 0 { s with digest := s.digest ++ [BitVec.ofNat 8 imm.toNat] }) ∧
    (255 < imm.toNat → FailsWith (.dpush imm) s 0x11 (wordOf 0x33 0 imm)) ∧
    (imm.toNat ≤ 255 → 16 ≤ s.digest.length → FailsWith (.dpush imm) s 0x12 (wordOf 0x33 0 imm))

/-- XPUSH appends a character, hex digit or not; range before capacity (R154). -/
def Obligations.XpushAppendsOneCharacter : Prop :=
  IdxMustBeZero 0x43 ∧ ∀ (s : State) (imm : Half),
    (imm.toNat ≤ 255 → s.hex.length < 32 →
      Answers (.xpush imm) s 0 { s with hex := s.hex ++ [BitVec.ofNat 8 imm.toNat] }) ∧
    (255 < imm.toNat → FailsWith (.xpush imm) s 0x11 (wordOf 0x43 0 imm)) ∧
    (imm.toNat ≤ 255 → 32 ≤ s.hex.length → FailsWith (.xpush imm) s 0x12 (wordOf 0x43 0 imm))

/-- GPUSH appends the bit sequence as a row, of any width, and fails only on a full grid (R171). -/
def Obligations.GpushAppendsTheBitRow : Prop :=
  OperandsMustBeZero 0x51 ∧ ∀ s : State,
    (s.grid.length < 128 → Answers .gpush s 0 { s with grid := s.grid ++ [s.bits] }) ∧
    (128 ≤ s.grid.length → FailsWith .gpush s 0x12 0x51000000)

/-- The clear commands empty their buffer and nothing else (R120, R123, R142, R153, R170). -/
def Obligations.ClearsEmptyOnlyTheirBuffer : Prop :=
  (OperandsMustBeZero 0x10 ∧ OperandsMustBeZero 0x14 ∧ OperandsMustBeZero 0x32 ∧ OperandsMustBeZero 0x42 ∧
    OperandsMustBeZero 0x50) ∧
  ∀ s : State,
    Answers .seedclr s 0 { s with seed := [] } ∧
    Answers .lclr s 0 { s with lens := [] } ∧
    Answers .dclr s 0 { s with digest := [] } ∧
    Answers .xclr s 0 { s with hex := [] } ∧
    Answers .gclr s 0 { s with grid := [] }

/-! ### Deriving the Length List -/

/-- DERIVE lists the seed's character codes and then 17, 31, 73, 47, 23 (R127). -/
def Obligations.DeriveListsCodesThenSuffix : Prop :=
  OperandsMustBeZero 0x18 ∧ ∀ s : State, ∃ l : List Half, Answers .derive s 0 { s with lens := l } ∧
    l.length = s.seed.length + 5 ∧
    (∀ (i : Nat) (c : Byte), s.seed[i]? = some c → l[i]? = some (BitVec.ofNat 16 c.toNat)) ∧
    l[s.seed.length]? = some 17 ∧ l[s.seed.length + 1]? = some 31 ∧ l[s.seed.length + 2]? = some 73 ∧
    l[s.seed.length + 3]? = some 47 ∧ l[s.seed.length + 4]? = some 23

/-- DERIVER puts a `-` and the row number in decimal, without padding, between the codes and the suffix, for
every row number `0 .. 255`. Rests on 41_round_runner.md section 3 and 30_encoding.md section 8; the codes of
`-` and of the digits and the unpadded decimal rendering are log entry 12 (PRESUMED: the spec takes them from
general knowledge, K1 and K2). -/
def Obligations.DeriverRendersTheRowInDecimal : Prop :=
  ImmMustBeZero 0x19 ∧ ∀ (s : State) (idx : Byte),
    Answers (.deriver idx) s 0
      { s with
        lens := s.seed.map (fun c : Byte => BitVec.ofNat 16 c.toNat) ++ [0x2D]
          ++ (Nat.toDigits 10 idx.toNat).map (fun d => BitVec.ofNat 16 d.toNat)
          ++ [17, 31, 73, 47, 23] }

/-! ### The mixer -/

/-- INIT gives the identity of the current length, cursor and skip size 0, and touches nothing else
(R100). -/
def Obligations.InitGivesTheIdentity : Prop :=
  OperandsMustBeZero 0x20 ∧ ∀ s : State, ∃ p : Sparse, Answers .init s 0 { s with sparse := p } ∧
    p.cells.length = s.n.toNat ∧ (∀ j < s.n.toNat, p.cells[j]? = some (BitVec.ofNat 8 j)) ∧
    p.pos = 0 ∧ p.skip = 0

/-- MIX does the mixing step of R101, cell by cell, in every legal state in which the length is at most `N`
and the skip size has room. Rests on 40_sparse_mixer.md section 2. -/
def Obligations.MixDoesTheMixingStep : Prop :=
  ∀ (s : State) (len : Half), Legal s → len.toNat ≤ s.n.toNat → s.sparse.skip.toNat < 2 ^ 32 - 1 →
    ∃ p : Sparse, Answers (.mix len) s 0 { s with sparse := p } ∧ IsMixStep s.n.toNat len s.sparse p

/-- The length instruction does the same step and gives no response. That the model runs it as an
instruction of its own is log entry 4; it rests on 30_encoding.md section 6. -/
def Obligations.LengthInstructionDoesTheMixingStep : Prop :=
  ∀ (s : State) (v : Half), Legal s → v.toNat ≤ s.n.toNat → s.sparse.skip.toNat < 2 ^ 32 - 1 →
    ∃ p : Sparse, exec (.len v) s = .next { s with sparse := p } ∧ IsMixStep s.n.toNat v s.sparse p

/-- MIX refuses a length above `N` first, then a skip size at its largest value; it changes nothing. So
does a length instruction, whose info values are the model's choice: log entry 4. Rests on
40_sparse_mixer.md section 2 and 30_encoding.md section 6. -/
def Obligations.LengthIsCheckedBeforeTheSkipSize : Prop :=
  ∀ (s : State) (len : Half),
    (s.n.toNat < len.toNat →
      FailsWith (.mix len) s 0x01 (BitVec.ofNat 32 len.toNat) ∧
      FailsWith (.len len) s 0x01 (BitVec.ofNat 32 len.toNat)) ∧
    (len.toNat ≤ s.n.toNat → s.sparse.skip.toNat = 2 ^ 32 - 1 →
      FailsWith (.mix len) s 0x13 (wordOf 0x21 0 len) ∧
      FailsWith (.len len) s 0x13 (BitVec.ofNat 32 len.toNat))

/-- The step can be undone: the old skip size and cursor are computed from the new ones and the length, and
the old cells are the new ones with the same positions reversed again (R105). -/
def Obligations.MixingStepIsReversible : Prop :=
  ∀ (s t : State) (len : Half), Legal s → len.toNat ≤ s.n.toNat → s.sparse.skip.toNat < 2 ^ 32 - 1 →
    exec (.mix len) s = .next t →
    let n := s.n.toNat
    let skip := t.sparse.skip.toNat - 1
    let pos := (t.sparse.pos.toNat + n - (len.toNat + skip) % n) % n
    s.sparse.skip.toNat = skip ∧ s.sparse.pos.toNat = pos ∧
    (∀ i < len.toNat,
      s.sparse.cells[(pos + i) % n]? = t.sparse.cells[(pos + len.toNat - 1 - i) % n]?) ∧
    (∀ i, len.toNat ≤ i → i < n → s.sparse.cells[(pos + i) % n]? = t.sparse.cells[(pos + i) % n]?)

/-! ### The round runner -/

/-- RUN fails on the first entry above `N` when it would process one, with its index and value as info, and
changes nothing (R130, check phase). Rests on 41_round_runner.md section 4. -/
def Obligations.RunRefusesTheFirstOverlongEntry : Prop :=
  ∀ (s : State) (i : Nat) (v : Half), Legal s → 1 ≤ s.rounds.toNat → s.lens[i]? = some v →
    s.n.toNat < v.toNat → (∀ j < i, ∀ u, s.lens[j]? = some u → u.toNat ≤ s.n.toNat) →
    FailsWith .run s 0x01 (BitVec.ofNat 32 (i * 65536 + v.toNat))

/-- A successful RUN is the command sequence INIT, then MIX of each entry, in list order, `ROUNDS` times (R131
item 5), and equally the length instructions executed by themselves, which is the model's choice: log entry 4.
Rests on 41_round_runner.md section 4 and 30_encoding.md section 6. -/
def Obligations.RunIsInitThenEachLength : Prop :=
  ∀ s : State, Legal s → (s.rounds = 0 ∨ ∀ v ∈ s.lens, v.toNat ≤ s.n.toNat) →
    exec .run s = execAll (initThenMix s.lens s.rounds.toNat) s ∧
    exec .run s = execAll (initThenLen s.lens s.rounds.toNat) s

/-- A successful RUN ends with `SKIP = ROUNDS * LLEN` and the cursor at the sum of all advances mod `N`, and
changes the sparse state alone (R131 items 3 and 4). Rests on 41_round_runner.md section 4. -/
def Obligations.RunEndsAtTheSummedCursor : Prop :=
  ∀ s : State, Legal s → (s.rounds = 0 ∨ ∀ v ∈ s.lens, v.toNat ≤ s.n.toNat) →
    ∃ p : Sparse, Answers .run s 0 { s with sparse := p } ∧
      p.skip.toNat = s.rounds.toNat * s.lens.length ∧
      p.pos.toNat = (s.rounds.toNat * (s.lens.map BitVec.toNat).sum
        + p.skip.toNat * (p.skip.toNat - 1) / 2) % s.n.toNat

/-- With no round, or with an empty list, RUN leaves the fresh identity whatever the list holds (R130,
corner cases). Rests on 41_round_runner.md section 4. -/
def Obligations.RunWithoutLengthsOnlyInitialises : Prop :=
  ∀ s : State, (s.rounds = 0 ∨ s.lens = []) → exec .run s = exec .init s

/-- The sparse hash is the output of the document's rotating machine, turned back by its total shift:
position `j` of `S` is the backing element `j - shift` mod `N`, and the cursor is the shift mod `N`
(R104). -/
def Obligations.RunAgreesWithTheRotatingMachine : Prop :=
  ∀ s t : State, Legal s → (s.rounds = 0 ∨ ∀ v ∈ s.lens, v.toNat ≤ s.n.toNat) → exec .run s = .next t →
    let n := s.n.toNat
    let m := (List.replicate s.rounds.toNat s.lens).flatten.foldl (Rotating.mix n) (Rotating.start n)
    t.sparse.pos.toNat = m.shift % n ∧ t.sparse.skip.toNat = m.skip ∧ t.sparse.cells.length = n ∧
    ∀ j < n, t.sparse.cells[j]? = m.backing[(j + n - m.shift % n) % n]?

/-! ### The dense reducer -/

/-- DENSE gives `N / 16` bytes, byte `b` the exclusive or of cells `16b .. 16b + 15`, and fails where `N` is
no multiple of 16 (R140). -/
def Obligations.DenseFoldsEachBlock : Prop :=
  OperandsMustBeZero 0x30 ∧ ∀ s : State, Legal s →
    (s.n.toNat % 16 = 0 →
      ∃ d : List Byte, Answers .dense s 0 { s with digest := d } ∧ d.length = s.n.toNat / 16 ∧
        ∀ b < s.n.toNat / 16,
          d[b]? = some ((List.range 16).foldl
            (fun acc k => acc ^^^ s.sparse.cells.getD (16 * b + k) 0) 0x00)) ∧
    (s.n.toNat % 16 ≠ 0 → FailsWith .dense s 0x02 (s.n.setWidth 32))

/-- The digest of the identity sequence is all zero, for every length DENSE accepts (R140, corner cases).
Rests on 42_dense_reducer.md. -/
def Obligations.IdentityFoldsToZero : Prop :=
  ∀ s : State, Legal s → s.n.toNat % 16 = 0 →
    ∃ t, execAll [.init, .dense] s = .next t ∧ t.digest = List.replicate (s.n.toNat / 16) 0

/-! ### The hex codec -/

/-- HEXENC gives two lowercase hex characters per byte, the high nibble first. Rests on 43_hex_codec.md section 1
and 30_encoding.md section 8; the codes of the characters are log entry 12 (PRESUMED: the spec takes them from
general knowledge, K1). -/
def Obligations.HexencRendersBothNibbles : Prop :=
  OperandsMustBeZero 0x40 ∧ ∀ s : State, ∃ x : List Byte, Answers .hexenc s 0 { s with hex := x } ∧
    x.length = 2 * s.digest.length ∧
    ∀ (i : Nat) (b : Byte), s.digest[i]? = some b →
      x[2 * i]? = some (hexCode (b.toNat / 16)) ∧ x[2 * i + 1]? = some (hexCode (b.toNat % 16))

/-- HEXDEC gives four bits per character, most significant first, when every character is one of
`0123456789abcdef`, and fails on the first that is not. Rests on 43_hex_codec.md section 3 and 30_encoding.md
section 8; which codes are hex digits is log entry 12 (PRESUMED: the spec takes them from general knowledge,
K1). -/
def Obligations.HexdecExpandsEachDigit : Prop :=
  OperandsMustBeZero 0x44 ∧ ∀ s : State,
    (∀ vs : List Nat, (∀ v ∈ vs, v < 16) → s.hex = vs.map hexCode →
      ∃ b : List Bool, Answers .hexdec s 0 { s with bits := b } ∧ b.length = 4 * s.hex.length ∧
        ∀ (i v : Nat), vs[i]? = some v →
          b[4 * i]? = some (v.testBit 3) ∧ b[4 * i + 1]? = some (v.testBit 2) ∧
          b[4 * i + 2]? = some (v.testBit 1) ∧ b[4 * i + 3]? = some (v.testBit 0)) ∧
    (∀ (i : Nat) (c : Byte), s.hex.length ≤ 32 → s.hex[i]? = some c → (∀ v < 16, c ≠ hexCode v) →
      (∀ j < i, ∃ v < 16, s.hex[j]? = some (hexCode v)) →
      FailsWith .hexdec s 0x03 (BitVec.ofNat 32 (i * 256 + c.toNat)))

/-- HEXENC then HEXDEC always succeeds and leaves the bits of each digest byte from bit 7 down to bit 0
(R158). -/
def Obligations.HexRoundTripIsTheBitExpansion : Prop :=
  ∀ s : State, ∃ t, execAll [.hexenc, .hexdec] s = .next t ∧ t.rsp = some ⟨0x00, 0⟩ ∧
    t.bits.length = 8 * s.digest.length ∧
    ∀ (i : Nat) (b : Byte), s.digest[i]? = some b → ∀ k < 8, t.bits[8 * i + k]? = some (b.getLsbD (7 - k))

/-! ### The grid, the counts and the macros -/

/-- COUNT answers the number of set cells, whatever the row widths, and stores it in `UCNT`; the count fits
(R174). -/
def Obligations.CountAnswersTheSetCells : Prop :=
  OperandsMustBeZero 0x54 ∧ ∀ s : State, Legal s →
    Nat.card (SetCell s.grid) ≤ 16384 ∧
    Answers .count s (BitVec.ofNat 32 (Nat.card (SetCell s.grid)))
      { s with ucnt := BitVec.ofNat 15 (Nat.card (SetCell s.grid)) }

/-- REGION on a rectangular grid answers the number of its regions, the classes of set cells under chains of
adjacent set cells, and stores it in `RCNT` (R190 and R191, success). Rests on 45_region_counter.md. -/
def Obligations.RegionCountsTheRegions : Prop :=
  ∀ s : State, (∀ row ∈ s.grid, ∀ row' ∈ s.grid, row.length = row'.length) →
    Answers .region s (BitVec.ofNat 32 (Nat.card (Regions s.grid)))
      { s with rcnt := BitVec.ofNat 14 (Nat.card (Regions s.grid)) }

/-- REGION on a ragged grid fails with the first row whose width differs from row 0's (R190, failure). Rests
on 45_region_counter.md. -/
def Obligations.RegionRefusesTheFirstRaggedRow : Prop :=
  ∀ (s : State) (r : Nat) (row0 row : List Bool), s.grid[0]? = some row0 → s.grid[r]? = some row →
    row.length ≠ row0.length →
    (∀ j < r, ∀ row', s.grid[j]? = some row' → row'.length = row0.length) →
    FailsWith .region s 0x04 (BitVec.ofNat 32 r)

/-- No legal rectangular grid has more than 8192 regions: two cells side by side never lie in two regions
(R37). Rests on 10_state.md section 3 and 45_region_counter.md. -/
def Obligations.RegionsAreAtMostHalfTheCells : Prop :=
  ∀ s : State, Legal s → (∀ row ∈ s.grid, ∀ row' ∈ s.grid, row.length = row'.length) →
    Nat.card (Regions s.grid) ≤ 8192

/-- HASH is exactly the effect of its inner commands, in every state (R176, with R175's definition of a
macro). Rests on 44_bitmap_synthesizer.md section 3. -/
def Obligations.HashIsItsCommandSequence : Prop :=
  ∀ s : State, exec .hash s = execAll hashSequence s

/-- HASH always succeeds, writes what R176 says and nothing else, and leaves a full digest, 32 characters
and `SKIP = 64 * (SLEN + 5)`. Rests on 44_bitmap_synthesizer.md section 3. -/
def Obligations.HashWritesThePipelineOnly : Prop :=
  ∀ s : State, Legal s →
    ∃ (p : Sparse) (l : List Half) (d x : List Byte),
      Answers .hash s 0
        { s with n := 256, rounds := 64, sparse := p, lens := l, digest := d, hex := x } ∧
      p.skip.toNat = 64 * (s.seed.length + 5) ∧ l.length = s.seed.length + 5 ∧ d.length = 16 ∧
      x.length = 32

/-- ROWGEN is exactly the effect of its inner commands, in every state (R177, with R175's definition of a
macro). Rests on 44_bitmap_synthesizer.md section 3. -/
def Obligations.RowgenIsItsCommandSequence : Prop :=
  ∀ s : State, exec .rowgen s = execAll rowgenSequence s

/-- ROWGEN always succeeds, writes what R177 says and nothing else, and leaves 128 rows of 128 cells, so
that a REGION after it succeeds (R178 item 2). Rests on 44_bitmap_synthesizer.md section 3. -/
def Obligations.RowgenGridIsSquare : Prop :=
  ∀ s : State,
    ∃ (p : Sparse) (l : List Half) (d x : List Byte) (b : List Bool) (g : List (List Bool)) (t : State),
      Answers .rowgen s 0
        { s with n := 256, rounds := 64, sparse := p, lens := l, digest := d, hex := x, bits := b,
                 grid := g } ∧
      g.length = 128 ∧ (∀ row ∈ g, row.length = 128) ∧
      execAll [.rowgen, .region] s = .next t ∧ ∃ data, t.rsp = some ⟨0x00, data⟩

/-- Row `r` of the grid is a function of the seed and `r` alone: on any state with the same seed the inner
commands for `r` leave it in `B` (R178 item 1). Rests on 44_bitmap_synthesizer.md section 3. -/
def Obligations.GridRowsAreIndependent : Prop :=
  ∀ (s u t v : State) (r : Nat), r < 128 → s.seed = u.seed → exec .rowgen s = .next t →
    execAll [.csrw 0x00 256, .csrw 0x01 64, .deriver (BitVec.ofNat 8 r), .run, .dense, .hexenc, .hexdec] u
      = .next v →
    t.grid[r]? = some v.bits

/-! ### Errors and write sets -/

/-- A failed command, whatever the error, changes nothing but the response and, where `ERR` was 0, the
capture; the code and info of the response are what is captured (R215). -/
def Obligations.FailureChangesOnlyTheCapture : Prop :=
  ∀ (s t : State) (w : Word) (rest : List HostMove) (code : Byte) (info : Word),
    s.pending = .command w :: rest → step s = .next t → t.rsp = some ⟨code, info⟩ → code ≠ 0x00 →
    code ∈ errorCodes ∧ t = afterFailure code info { s with pending := rest }

/-- A successful command leaves `ERR` and `ERRINFO` as they were, but for CLRERR and RESET. Rests on
60_exceptions.md section 5 and 10_state.md section 11. -/
def Obligations.SuccessKeepsTheCapture : Prop :=
  ∀ (s t : State) (w : Word) (rest : List HostMove) (data : Word),
    s.pending = .command w :: rest → step s = .next t → t.rsp = some ⟨0x00, data⟩ →
    w ≠ 0x03000000 → w ≠ 0x04000000 → t.err = s.err ∧ t.errInfo = s.errInfo

/-- In a run of command words without CLRERR and without RESET that starts with `ERR` = 0, `ERR` is 0 at the end
exactly when every response on the way was a success. Rests on 60_exceptions.md section 5. -/
def Obligations.ErrStaysZeroIffNoCommandFailed : Prop :=
  ∀ (s t : State) (ws : List Word), s.err = 0 → s.pending = ws.map .command →
    (∀ w ∈ ws, w ≠ 0x03000000 ∧ w ≠ 0x04000000) →
    Sys2Proof.core.run ws.length s = .next t →
    (t.err = 0 ↔ ∀ k < ws.length, ∀ u : State, Sys2Proof.core.run (k + 1) s = .next u →
      ∃ data, u.rsp = some ⟨0x00, data⟩)

/-- Which instructions may change which state, the read and write sets turned into a frame for all
instructions. Rests on 10_state.md section 11 (R49), with the length instruction added: log entry 4. -/
def Obligations.OnlyTheListedInstructionsWrite : Prop :=
  ∀ (i : Instr) (s t : State), exec i s = .next t →
    (t.n ≠ s.n → (∃ imm, i = .csrw 0x00 imm) ∨ i ∈ [.reset, .hash, .rowgen]) ∧
    (t.rounds ≠ s.rounds → (∃ imm, i = .csrw 0x01 imm) ∨ i ∈ [.reset, .hash, .rowgen]) ∧
    (t.sparse ≠ s.sparse → (∃ imm, i = .csrw 0x00 imm) ∨ (∃ imm, i = .mix imm) ∨ (∃ v, i = .len v) ∨
      i ∈ [.reset, .init, .run, .hash, .rowgen]) ∧
    (t.seed ≠ s.seed → (∃ imm, i = .seedpush imm) ∨ i ∈ [.reset, .seedclr]) ∧
    (t.lens ≠ s.lens → (∃ imm, i = .lpush imm) ∨ (∃ idx, i = .deriver idx) ∨
      i ∈ [.reset, .lclr, .derive, .hash, .rowgen]) ∧
    (t.digest ≠ s.digest → (∃ imm, i = .dpush imm) ∨ i ∈ [.reset, .dense, .dclr, .hash, .rowgen]) ∧
    (t.hex ≠ s.hex → (∃ imm, i = .xpush imm) ∨ i ∈ [.reset, .hexenc, .xclr, .hash, .rowgen]) ∧
    (t.bits ≠ s.bits → i ∈ [.reset, .hexdec, .rowgen]) ∧
    (t.grid ≠ s.grid → i ∈ [.reset, .gclr, .gpush, .rowgen]) ∧
    (t.ucnt ≠ s.ucnt → i ∈ [.reset, .count]) ∧
    (t.rcnt ≠ s.rcnt → i ∈ [.reset, .region]) ∧
    t.pending = s.pending

/-- An instruction that is not well-formed fails in every legal state, with an error of R210. Rests on
30_encoding.md sections 2 and 6 and the capacities of 00_scope.md section 4; what counts as ill-formed is log
entry 6, and that a length instruction above 256 fails by itself, with a response, is the model's choice: log
entry 4. -/
def Obligations.IllFormedAlwaysFails : Prop :=
  ∀ (i : Instr) (s : State), Legal s → WellFormed i = false →
    ∃ code ∈ errorCodes, ∃ info, FailsWith i s code info

/-! ### Invariants -/

/-- The reset state is legal. Rests on 10_state.md sections 6 and 9. -/
def Obligations.ResetStateIsLegal : Prop := Legal State.reset ∧ RegionCountInRange State.reset

/-- Every step keeps a state legal: `N` and the cursor in range, `S` a permutation of `0 .. N-1`, the
buffers within their capacities, the bit rows of legal width, `UCNT` and the capture legal. Rests on
10_state.md sections 1 to 3, 6 and 10. -/
def Obligations.StepKeepsTheStateLegal : Prop :=
  ∀ s t : State, Legal s → step s = .next t → Legal t

/-- Every step from a legal state keeps `RCNT` within `0 .. 8192`. Rests on 10_state.md section 3 (R37). -/
def Obligations.StepKeepsTheRegionCountInRange : Prop :=
  ∀ s t : State, Legal s → RegionCountInRange s → step s = .next t → RegionCountInRange t
end

