-- ==== Sys2Proof/Laws/Decode.lean ====
section
/-! SUPPORT. The fields of an assembled command word (30_encoding.md R81). -/

namespace Sys2Proof

/-- Bit `i` of an assembled word stands in `imm`, `idx` or `op`. -/
theorem getLsbD_assemble (op idx : Byte) (imm : Half) (i : Nat) :
    (assemble op idx imm).getLsbD i =
      if i < 16 then imm.getLsbD i else if i - 16 < 8 then idx.getLsbD (i - 16) else op.getLsbD (i - 16 - 8) := by
  have h : (assemble op idx imm).getLsbD i = if i < 16 then imm.getLsbD i else (op ++ idx).getLsbD (i - 16) :=
    BitVec.getLsbD_append
  rw [h, BitVec.getLsbD_append]

/-- `w[31:24]` of an assembled word. -/
@[simp] theorem fieldOp_assemble (op idx : Byte) (imm : Half) : fieldOp (assemble op idx imm) = op := by
  apply BitVec.eq_of_getLsbD_eq
  intro i hi
  rw [fieldOp, BitVec.getLsbD_extractLsb', getLsbD_assemble, if_neg (by omega), if_neg (by omega)]
  simp [hi, show 24 + i - 16 - 8 = i by omega]

/-- `w[23:16]` of an assembled word. -/
@[simp] theorem fieldIdx_assemble (op idx : Byte) (imm : Half) : fieldIdx (assemble op idx imm) = idx := by
  apply BitVec.eq_of_getLsbD_eq
  intro i hi
  rw [fieldIdx, BitVec.getLsbD_extractLsb', getLsbD_assemble, if_neg (by omega), if_pos (by omega)]
  simp [hi]

/-- `w[15:0]` of an assembled word. -/
@[simp] theorem fieldImm_assemble (op idx : Byte) (imm : Half) : fieldImm (assemble op idx imm) = imm := by
  apply BitVec.eq_of_getLsbD_eq
  intro i hi
  rw [fieldImm, BitVec.getLsbD_extractLsb', getLsbD_assemble, if_pos (by omega)]
  simp [hi]

/-- A word is assembled from its own fields. -/
theorem assemble_fields (w : Word) : assemble (fieldOp w) (fieldIdx w) (fieldImm w) = w := by
  apply BitVec.eq_of_getLsbD_eq
  intro i hi
  rw [getLsbD_assemble, fieldOp, fieldIdx, fieldImm]
  simp only [BitVec.getLsbD_extractLsb']
  split
  · simp [*]
  · split
    · simp [*, show 16 + (i - 16) = i by omega]
    · simp [show 24 + (i - 16 - 8) = i by omega, show i - 16 - 8 < 8 by omega]

end Sys2Proof
end

