-- ==== Sys2Proof/Laws/State.lean ====
section
/-! SUPPORT. What each named update leaves in each field of `State`, so that no proof unfolds a record
update. -/

namespace Sys2Proof.Machine

/-! ### `answered` -/

@[simp] theorem answered_n (data : Word) (s : State) : (answered data s).n = s.n := rfl
@[simp] theorem answered_rounds (data : Word) (s : State) : (answered data s).rounds = s.rounds :=
    rfl
@[simp] theorem answered_sparse (data : Word) (s : State) : (answered data s).sparse = s.sparse :=
    rfl
@[simp] theorem answered_seed (data : Word) (s : State) : (answered data s).seed = s.seed := rfl
@[simp] theorem answered_lens (data : Word) (s : State) : (answered data s).lens = s.lens := rfl
@[simp] theorem answered_digest (data : Word) (s : State) : (answered data s).digest = s.digest :=
    rfl
@[simp] theorem answered_hex (data : Word) (s : State) : (answered data s).hex = s.hex := rfl
@[simp] theorem answered_bits (data : Word) (s : State) : (answered data s).bits = s.bits := rfl
@[simp] theorem answered_grid (data : Word) (s : State) : (answered data s).grid = s.grid := rfl
@[simp] theorem answered_ucnt (data : Word) (s : State) : (answered data s).ucnt = s.ucnt := rfl
@[simp] theorem answered_rcnt (data : Word) (s : State) : (answered data s).rcnt = s.rcnt := rfl
@[simp] theorem answered_err (data : Word) (s : State) : (answered data s).err = s.err := rfl
@[simp] theorem answered_errInfo (data : Word) (s : State) : (answered data s).errInfo = s.errInfo :=
    rfl
@[simp] theorem answered_pending (data : Word) (s : State) : (answered data s).pending = s.pending :=
    rfl
@[simp] theorem answered_rsp (data : Word) (s : State) : (answered data s).rsp = some ⟨successCode, data⟩ :=
    rfl

/-! ### `captureError` -/

@[simp] theorem captureError_n (e : Error) (info : Word) (s : State) : (captureError e info s).n = s.n :=
    rfl
@[simp] theorem captureError_rounds (e : Error) (info : Word) (s : State) : (captureError e info s).rounds = s.rounds :=
    rfl
@[simp] theorem captureError_sparse (e : Error) (info : Word) (s : State) : (captureError e info s).sparse = s.sparse :=
    rfl
@[simp] theorem captureError_seed (e : Error) (info : Word) (s : State) : (captureError e info s).seed = s.seed :=
    rfl
@[simp] theorem captureError_lens (e : Error) (info : Word) (s : State) : (captureError e info s).lens = s.lens :=
    rfl
@[simp] theorem captureError_digest (e : Error) (info : Word) (s : State) : (captureError e info s).digest = s.digest :=
    rfl
@[simp] theorem captureError_hex (e : Error) (info : Word) (s : State) : (captureError e info s).hex = s.hex :=
    rfl
@[simp] theorem captureError_bits (e : Error) (info : Word) (s : State) : (captureError e info s).bits = s.bits :=
    rfl
@[simp] theorem captureError_grid (e : Error) (info : Word) (s : State) : (captureError e info s).grid = s.grid :=
    rfl
@[simp] theorem captureError_ucnt (e : Error) (info : Word) (s : State) : (captureError e info s).ucnt = s.ucnt :=
    rfl
@[simp] theorem captureError_rcnt (e : Error) (info : Word) (s : State) : (captureError e info s).rcnt = s.rcnt :=
    rfl
@[simp] theorem captureError_err (e : Error) (info : Word) (s : State) : (captureError e info s).err = if s.err = 0 then errorCode e else s.err :=
    rfl
@[simp] theorem captureError_errInfo (e : Error) (info : Word) (s : State) : (captureError e info s).errInfo = if s.err = 0 then info else s.errInfo :=
    rfl
@[simp] theorem captureError_pending (e : Error) (info : Word) (s : State) : (captureError e info s).pending = s.pending :=
    rfl
@[simp] theorem captureError_rsp (e : Error) (info : Word) (s : State) : (captureError e info s).rsp = s.rsp :=
    rfl

/-! ### `failed` -/

@[simp] theorem failed_n (e : Error) (info : Word) (s : State) : (failed e info s).n = s.n := rfl
@[simp] theorem failed_rounds (e : Error) (info : Word) (s : State) : (failed e info s).rounds = s.rounds :=
    rfl
@[simp] theorem failed_sparse (e : Error) (info : Word) (s : State) : (failed e info s).sparse = s.sparse :=
    rfl
@[simp] theorem failed_seed (e : Error) (info : Word) (s : State) : (failed e info s).seed = s.seed :=
    rfl
@[simp] theorem failed_lens (e : Error) (info : Word) (s : State) : (failed e info s).lens = s.lens :=
    rfl
@[simp] theorem failed_digest (e : Error) (info : Word) (s : State) : (failed e info s).digest = s.digest :=
    rfl
@[simp] theorem failed_hex (e : Error) (info : Word) (s : State) : (failed e info s).hex = s.hex :=
    rfl
@[simp] theorem failed_bits (e : Error) (info : Word) (s : State) : (failed e info s).bits = s.bits :=
    rfl
@[simp] theorem failed_grid (e : Error) (info : Word) (s : State) : (failed e info s).grid = s.grid :=
    rfl
@[simp] theorem failed_ucnt (e : Error) (info : Word) (s : State) : (failed e info s).ucnt = s.ucnt :=
    rfl
@[simp] theorem failed_rcnt (e : Error) (info : Word) (s : State) : (failed e info s).rcnt = s.rcnt :=
    rfl
@[simp] theorem failed_err (e : Error) (info : Word) (s : State) : (failed e info s).err = if s.err = 0 then errorCode e else s.err :=
    rfl
@[simp] theorem failed_errInfo (e : Error) (info : Word) (s : State) : (failed e info s).errInfo = if s.err = 0 then info else s.errInfo :=
    rfl
@[simp] theorem failed_pending (e : Error) (info : Word) (s : State) : (failed e info s).pending = s.pending :=
    rfl
@[simp] theorem failed_rsp (e : Error) (info : Word) (s : State) : (failed e info s).rsp = some ⟨errorCode e, info⟩ :=
    rfl

/-! ### `clearCapture` -/

@[simp] theorem clearCapture_n (s : State) : (clearCapture s).n = s.n := rfl
@[simp] theorem clearCapture_rounds (s : State) : (clearCapture s).rounds = s.rounds := rfl
@[simp] theorem clearCapture_sparse (s : State) : (clearCapture s).sparse = s.sparse := rfl
@[simp] theorem clearCapture_seed (s : State) : (clearCapture s).seed = s.seed := rfl
@[simp] theorem clearCapture_lens (s : State) : (clearCapture s).lens = s.lens := rfl
@[simp] theorem clearCapture_digest (s : State) : (clearCapture s).digest = s.digest := rfl
@[simp] theorem clearCapture_hex (s : State) : (clearCapture s).hex = s.hex := rfl
@[simp] theorem clearCapture_bits (s : State) : (clearCapture s).bits = s.bits := rfl
@[simp] theorem clearCapture_grid (s : State) : (clearCapture s).grid = s.grid := rfl
@[simp] theorem clearCapture_ucnt (s : State) : (clearCapture s).ucnt = s.ucnt := rfl
@[simp] theorem clearCapture_rcnt (s : State) : (clearCapture s).rcnt = s.rcnt := rfl
@[simp] theorem clearCapture_err (s : State) : (clearCapture s).err = 0 := rfl
@[simp] theorem clearCapture_errInfo (s : State) : (clearCapture s).errInfo = 0 := rfl
@[simp] theorem clearCapture_pending (s : State) : (clearCapture s).pending = s.pending := rfl
@[simp] theorem clearCapture_rsp (s : State) : (clearCapture s).rsp = s.rsp := rfl

/-! ### `writeN` -/

@[simp] theorem writeN_n (v : Nat) (s : State) : (writeN v s).n = BitVec.ofNat 9 v := rfl
@[simp] theorem writeN_rounds (v : Nat) (s : State) : (writeN v s).rounds = s.rounds := rfl
@[simp] theorem writeN_sparse (v : Nat) (s : State) : (writeN v s).sparse = freshSparse v := rfl
@[simp] theorem writeN_seed (v : Nat) (s : State) : (writeN v s).seed = s.seed := rfl
@[simp] theorem writeN_lens (v : Nat) (s : State) : (writeN v s).lens = s.lens := rfl
@[simp] theorem writeN_digest (v : Nat) (s : State) : (writeN v s).digest = s.digest := rfl
@[simp] theorem writeN_hex (v : Nat) (s : State) : (writeN v s).hex = s.hex := rfl
@[simp] theorem writeN_bits (v : Nat) (s : State) : (writeN v s).bits = s.bits := rfl
@[simp] theorem writeN_grid (v : Nat) (s : State) : (writeN v s).grid = s.grid := rfl
@[simp] theorem writeN_ucnt (v : Nat) (s : State) : (writeN v s).ucnt = s.ucnt := rfl
@[simp] theorem writeN_rcnt (v : Nat) (s : State) : (writeN v s).rcnt = s.rcnt := rfl
@[simp] theorem writeN_err (v : Nat) (s : State) : (writeN v s).err = s.err := rfl
@[simp] theorem writeN_errInfo (v : Nat) (s : State) : (writeN v s).errInfo = s.errInfo := rfl
@[simp] theorem writeN_pending (v : Nat) (s : State) : (writeN v s).pending = s.pending := rfl
@[simp] theorem writeN_rsp (v : Nat) (s : State) : (writeN v s).rsp = s.rsp := rfl

/-! ### `writeRounds` -/

@[simp] theorem writeRounds_n (v : Half) (s : State) : (writeRounds v s).n = s.n := rfl
@[simp] theorem writeRounds_rounds (v : Half) (s : State) : (writeRounds v s).rounds = v := rfl
@[simp] theorem writeRounds_sparse (v : Half) (s : State) : (writeRounds v s).sparse = s.sparse :=
    rfl
@[simp] theorem writeRounds_seed (v : Half) (s : State) : (writeRounds v s).seed = s.seed := rfl
@[simp] theorem writeRounds_lens (v : Half) (s : State) : (writeRounds v s).lens = s.lens := rfl
@[simp] theorem writeRounds_digest (v : Half) (s : State) : (writeRounds v s).digest = s.digest :=
    rfl
@[simp] theorem writeRounds_hex (v : Half) (s : State) : (writeRounds v s).hex = s.hex := rfl
@[simp] theorem writeRounds_bits (v : Half) (s : State) : (writeRounds v s).bits = s.bits := rfl
@[simp] theorem writeRounds_grid (v : Half) (s : State) : (writeRounds v s).grid = s.grid := rfl
@[simp] theorem writeRounds_ucnt (v : Half) (s : State) : (writeRounds v s).ucnt = s.ucnt := rfl
@[simp] theorem writeRounds_rcnt (v : Half) (s : State) : (writeRounds v s).rcnt = s.rcnt := rfl
@[simp] theorem writeRounds_err (v : Half) (s : State) : (writeRounds v s).err = s.err := rfl
@[simp] theorem writeRounds_errInfo (v : Half) (s : State) : (writeRounds v s).errInfo = s.errInfo :=
    rfl
@[simp] theorem writeRounds_pending (v : Half) (s : State) : (writeRounds v s).pending = s.pending :=
    rfl
@[simp] theorem writeRounds_rsp (v : Half) (s : State) : (writeRounds v s).rsp = s.rsp := rfl

/-! ### `forceHashConfig` -/

@[simp] theorem forceHashConfig_n (s : State) : (forceHashConfig s).n = BitVec.ofNat 9 Config.hashN :=
    rfl
@[simp] theorem forceHashConfig_rounds (s : State) : (forceHashConfig s).rounds = BitVec.ofNat 16 Config.hashRounds :=
    rfl
@[simp] theorem forceHashConfig_sparse (s : State) : (forceHashConfig s).sparse = freshSparse Config.hashN :=
    rfl
@[simp] theorem forceHashConfig_seed (s : State) : (forceHashConfig s).seed = s.seed := rfl
@[simp] theorem forceHashConfig_lens (s : State) : (forceHashConfig s).lens = s.lens := rfl
@[simp] theorem forceHashConfig_digest (s : State) : (forceHashConfig s).digest = s.digest := rfl
@[simp] theorem forceHashConfig_hex (s : State) : (forceHashConfig s).hex = s.hex := rfl
@[simp] theorem forceHashConfig_bits (s : State) : (forceHashConfig s).bits = s.bits := rfl
@[simp] theorem forceHashConfig_grid (s : State) : (forceHashConfig s).grid = s.grid := rfl
@[simp] theorem forceHashConfig_ucnt (s : State) : (forceHashConfig s).ucnt = s.ucnt := rfl
@[simp] theorem forceHashConfig_rcnt (s : State) : (forceHashConfig s).rcnt = s.rcnt := rfl
@[simp] theorem forceHashConfig_err (s : State) : (forceHashConfig s).err = s.err := rfl
@[simp] theorem forceHashConfig_errInfo (s : State) : (forceHashConfig s).errInfo = s.errInfo := rfl
@[simp] theorem forceHashConfig_pending (s : State) : (forceHashConfig s).pending = s.pending := rfl
@[simp] theorem forceHashConfig_rsp (s : State) : (forceHashConfig s).rsp = s.rsp := rfl

/-! ### `deriveSeed` -/

@[simp] theorem deriveSeed_n (s : State) : (deriveSeed s).n = s.n := rfl
@[simp] theorem deriveSeed_rounds (s : State) : (deriveSeed s).rounds = s.rounds := rfl
@[simp] theorem deriveSeed_sparse (s : State) : (deriveSeed s).sparse = s.sparse := rfl
@[simp] theorem deriveSeed_seed (s : State) : (deriveSeed s).seed = s.seed := rfl
@[simp] theorem deriveSeed_lens (s : State) : (deriveSeed s).lens = lengthsOf s.seed := rfl
@[simp] theorem deriveSeed_digest (s : State) : (deriveSeed s).digest = s.digest := rfl
@[simp] theorem deriveSeed_hex (s : State) : (deriveSeed s).hex = s.hex := rfl
@[simp] theorem deriveSeed_bits (s : State) : (deriveSeed s).bits = s.bits := rfl
@[simp] theorem deriveSeed_grid (s : State) : (deriveSeed s).grid = s.grid := rfl
@[simp] theorem deriveSeed_ucnt (s : State) : (deriveSeed s).ucnt = s.ucnt := rfl
@[simp] theorem deriveSeed_rcnt (s : State) : (deriveSeed s).rcnt = s.rcnt := rfl
@[simp] theorem deriveSeed_err (s : State) : (deriveSeed s).err = s.err := rfl
@[simp] theorem deriveSeed_errInfo (s : State) : (deriveSeed s).errInfo = s.errInfo := rfl
@[simp] theorem deriveSeed_pending (s : State) : (deriveSeed s).pending = s.pending := rfl
@[simp] theorem deriveSeed_rsp (s : State) : (deriveSeed s).rsp = s.rsp := rfl

/-! ### `deriveRow` -/

@[simp] theorem deriveRow_n (r : Nat) (s : State) : (deriveRow r s).n = s.n := rfl
@[simp] theorem deriveRow_rounds (r : Nat) (s : State) : (deriveRow r s).rounds = s.rounds := rfl
@[simp] theorem deriveRow_sparse (r : Nat) (s : State) : (deriveRow r s).sparse = s.sparse := rfl
@[simp] theorem deriveRow_seed (r : Nat) (s : State) : (deriveRow r s).seed = s.seed := rfl
@[simp] theorem deriveRow_lens (r : Nat) (s : State) : (deriveRow r s).lens = lengthsOf (rowString s.seed r) :=
    rfl
@[simp] theorem deriveRow_digest (r : Nat) (s : State) : (deriveRow r s).digest = s.digest := rfl
@[simp] theorem deriveRow_hex (r : Nat) (s : State) : (deriveRow r s).hex = s.hex := rfl
@[simp] theorem deriveRow_bits (r : Nat) (s : State) : (deriveRow r s).bits = s.bits := rfl
@[simp] theorem deriveRow_grid (r : Nat) (s : State) : (deriveRow r s).grid = s.grid := rfl
@[simp] theorem deriveRow_ucnt (r : Nat) (s : State) : (deriveRow r s).ucnt = s.ucnt := rfl
@[simp] theorem deriveRow_rcnt (r : Nat) (s : State) : (deriveRow r s).rcnt = s.rcnt := rfl
@[simp] theorem deriveRow_err (r : Nat) (s : State) : (deriveRow r s).err = s.err := rfl
@[simp] theorem deriveRow_errInfo (r : Nat) (s : State) : (deriveRow r s).errInfo = s.errInfo := rfl
@[simp] theorem deriveRow_pending (r : Nat) (s : State) : (deriveRow r s).pending = s.pending := rfl
@[simp] theorem deriveRow_rsp (r : Nat) (s : State) : (deriveRow r s).rsp = s.rsp := rfl

/-! ### `runList` -/

@[simp] theorem runList_n (s : State) : (runList s).n = s.n := rfl
@[simp] theorem runList_rounds (s : State) : (runList s).rounds = s.rounds := rfl
@[simp] theorem runList_sparse (s : State) : (runList s).sparse = applyRounds s.n.toNat s.lens s.rounds.toNat (freshSparse s.n.toNat) :=
    rfl
@[simp] theorem runList_seed (s : State) : (runList s).seed = s.seed := rfl
@[simp] theorem runList_lens (s : State) : (runList s).lens = s.lens := rfl
@[simp] theorem runList_digest (s : State) : (runList s).digest = s.digest := rfl
@[simp] theorem runList_hex (s : State) : (runList s).hex = s.hex := rfl
@[simp] theorem runList_bits (s : State) : (runList s).bits = s.bits := rfl
@[simp] theorem runList_grid (s : State) : (runList s).grid = s.grid := rfl
@[simp] theorem runList_ucnt (s : State) : (runList s).ucnt = s.ucnt := rfl
@[simp] theorem runList_rcnt (s : State) : (runList s).rcnt = s.rcnt := rfl
@[simp] theorem runList_err (s : State) : (runList s).err = s.err := rfl
@[simp] theorem runList_errInfo (s : State) : (runList s).errInfo = s.errInfo := rfl
@[simp] theorem runList_pending (s : State) : (runList s).pending = s.pending := rfl
@[simp] theorem runList_rsp (s : State) : (runList s).rsp = s.rsp := rfl

/-! ### `foldDigest` -/

@[simp] theorem foldDigest_n (s : State) : (foldDigest s).n = s.n := rfl
@[simp] theorem foldDigest_rounds (s : State) : (foldDigest s).rounds = s.rounds := rfl
@[simp] theorem foldDigest_sparse (s : State) : (foldDigest s).sparse = s.sparse := rfl
@[simp] theorem foldDigest_seed (s : State) : (foldDigest s).seed = s.seed := rfl
@[simp] theorem foldDigest_lens (s : State) : (foldDigest s).lens = s.lens := rfl
@[simp] theorem foldDigest_digest (s : State) : (foldDigest s).digest = (List.range (s.n.toNat / Config.block)).map (foldBlock s.sparse.cells) :=
    rfl
@[simp] theorem foldDigest_hex (s : State) : (foldDigest s).hex = s.hex := rfl
@[simp] theorem foldDigest_bits (s : State) : (foldDigest s).bits = s.bits := rfl
@[simp] theorem foldDigest_grid (s : State) : (foldDigest s).grid = s.grid := rfl
@[simp] theorem foldDigest_ucnt (s : State) : (foldDigest s).ucnt = s.ucnt := rfl
@[simp] theorem foldDigest_rcnt (s : State) : (foldDigest s).rcnt = s.rcnt := rfl
@[simp] theorem foldDigest_err (s : State) : (foldDigest s).err = s.err := rfl
@[simp] theorem foldDigest_errInfo (s : State) : (foldDigest s).errInfo = s.errInfo := rfl
@[simp] theorem foldDigest_pending (s : State) : (foldDigest s).pending = s.pending := rfl
@[simp] theorem foldDigest_rsp (s : State) : (foldDigest s).rsp = s.rsp := rfl

/-! ### `encodeHex` -/

@[simp] theorem encodeHex_n (s : State) : (encodeHex s).n = s.n := rfl
@[simp] theorem encodeHex_rounds (s : State) : (encodeHex s).rounds = s.rounds := rfl
@[simp] theorem encodeHex_sparse (s : State) : (encodeHex s).sparse = s.sparse := rfl
@[simp] theorem encodeHex_seed (s : State) : (encodeHex s).seed = s.seed := rfl
@[simp] theorem encodeHex_lens (s : State) : (encodeHex s).lens = s.lens := rfl
@[simp] theorem encodeHex_digest (s : State) : (encodeHex s).digest = s.digest := rfl
@[simp] theorem encodeHex_hex (s : State) : (encodeHex s).hex = s.digest.flatMap hexPair := rfl
@[simp] theorem encodeHex_bits (s : State) : (encodeHex s).bits = s.bits := rfl
@[simp] theorem encodeHex_grid (s : State) : (encodeHex s).grid = s.grid := rfl
@[simp] theorem encodeHex_ucnt (s : State) : (encodeHex s).ucnt = s.ucnt := rfl
@[simp] theorem encodeHex_rcnt (s : State) : (encodeHex s).rcnt = s.rcnt := rfl
@[simp] theorem encodeHex_err (s : State) : (encodeHex s).err = s.err := rfl
@[simp] theorem encodeHex_errInfo (s : State) : (encodeHex s).errInfo = s.errInfo := rfl
@[simp] theorem encodeHex_pending (s : State) : (encodeHex s).pending = s.pending := rfl
@[simp] theorem encodeHex_rsp (s : State) : (encodeHex s).rsp = s.rsp := rfl

/-! ### `decodeHex` -/

@[simp] theorem decodeHex_n (s : State) : (decodeHex s).n = s.n := rfl
@[simp] theorem decodeHex_rounds (s : State) : (decodeHex s).rounds = s.rounds := rfl
@[simp] theorem decodeHex_sparse (s : State) : (decodeHex s).sparse = s.sparse := rfl
@[simp] theorem decodeHex_seed (s : State) : (decodeHex s).seed = s.seed := rfl
@[simp] theorem decodeHex_lens (s : State) : (decodeHex s).lens = s.lens := rfl
@[simp] theorem decodeHex_digest (s : State) : (decodeHex s).digest = s.digest := rfl
@[simp] theorem decodeHex_hex (s : State) : (decodeHex s).hex = s.hex := rfl
@[simp] theorem decodeHex_bits (s : State) : (decodeHex s).bits = s.hex.flatMap charBits := rfl
@[simp] theorem decodeHex_grid (s : State) : (decodeHex s).grid = s.grid := rfl
@[simp] theorem decodeHex_ucnt (s : State) : (decodeHex s).ucnt = s.ucnt := rfl
@[simp] theorem decodeHex_rcnt (s : State) : (decodeHex s).rcnt = s.rcnt := rfl
@[simp] theorem decodeHex_err (s : State) : (decodeHex s).err = s.err := rfl
@[simp] theorem decodeHex_errInfo (s : State) : (decodeHex s).errInfo = s.errInfo := rfl
@[simp] theorem decodeHex_pending (s : State) : (decodeHex s).pending = s.pending := rfl
@[simp] theorem decodeHex_rsp (s : State) : (decodeHex s).rsp = s.rsp := rfl

/-! ### `clearGrid` -/

@[simp] theorem clearGrid_n (s : State) : (clearGrid s).n = s.n := rfl
@[simp] theorem clearGrid_rounds (s : State) : (clearGrid s).rounds = s.rounds := rfl
@[simp] theorem clearGrid_sparse (s : State) : (clearGrid s).sparse = s.sparse := rfl
@[simp] theorem clearGrid_seed (s : State) : (clearGrid s).seed = s.seed := rfl
@[simp] theorem clearGrid_lens (s : State) : (clearGrid s).lens = s.lens := rfl
@[simp] theorem clearGrid_digest (s : State) : (clearGrid s).digest = s.digest := rfl
@[simp] theorem clearGrid_hex (s : State) : (clearGrid s).hex = s.hex := rfl
@[simp] theorem clearGrid_bits (s : State) : (clearGrid s).bits = s.bits := rfl
@[simp] theorem clearGrid_grid (s : State) : (clearGrid s).grid = [] := rfl
@[simp] theorem clearGrid_ucnt (s : State) : (clearGrid s).ucnt = s.ucnt := rfl
@[simp] theorem clearGrid_rcnt (s : State) : (clearGrid s).rcnt = s.rcnt := rfl
@[simp] theorem clearGrid_err (s : State) : (clearGrid s).err = s.err := rfl
@[simp] theorem clearGrid_errInfo (s : State) : (clearGrid s).errInfo = s.errInfo := rfl
@[simp] theorem clearGrid_pending (s : State) : (clearGrid s).pending = s.pending := rfl
@[simp] theorem clearGrid_rsp (s : State) : (clearGrid s).rsp = s.rsp := rfl

/-! ### `pushRow` -/

@[simp] theorem pushRow_n (s : State) : (pushRow s).n = s.n := rfl
@[simp] theorem pushRow_rounds (s : State) : (pushRow s).rounds = s.rounds := rfl
@[simp] theorem pushRow_sparse (s : State) : (pushRow s).sparse = s.sparse := rfl
@[simp] theorem pushRow_seed (s : State) : (pushRow s).seed = s.seed := rfl
@[simp] theorem pushRow_lens (s : State) : (pushRow s).lens = s.lens := rfl
@[simp] theorem pushRow_digest (s : State) : (pushRow s).digest = s.digest := rfl
@[simp] theorem pushRow_hex (s : State) : (pushRow s).hex = s.hex := rfl
@[simp] theorem pushRow_bits (s : State) : (pushRow s).bits = s.bits := rfl
@[simp] theorem pushRow_grid (s : State) : (pushRow s).grid = s.grid ++ [s.bits] := rfl
@[simp] theorem pushRow_ucnt (s : State) : (pushRow s).ucnt = s.ucnt := rfl
@[simp] theorem pushRow_rcnt (s : State) : (pushRow s).rcnt = s.rcnt := rfl
@[simp] theorem pushRow_err (s : State) : (pushRow s).err = s.err := rfl
@[simp] theorem pushRow_errInfo (s : State) : (pushRow s).errInfo = s.errInfo := rfl
@[simp] theorem pushRow_pending (s : State) : (pushRow s).pending = s.pending := rfl
@[simp] theorem pushRow_rsp (s : State) : (pushRow s).rsp = s.rsp := rfl

/-! ### `presentCommand` -/

@[simp] theorem presentCommand_n (w : Word) (s : State) : (presentCommand w s).n = s.n := rfl
@[simp] theorem presentCommand_rounds (w : Word) (s : State) : (presentCommand w s).rounds = s.rounds :=
    rfl
@[simp] theorem presentCommand_sparse (w : Word) (s : State) : (presentCommand w s).sparse = s.sparse :=
    rfl
@[simp] theorem presentCommand_seed (w : Word) (s : State) : (presentCommand w s).seed = s.seed :=
    rfl
@[simp] theorem presentCommand_lens (w : Word) (s : State) : (presentCommand w s).lens = s.lens :=
    rfl
@[simp] theorem presentCommand_digest (w : Word) (s : State) : (presentCommand w s).digest = s.digest :=
    rfl
@[simp] theorem presentCommand_hex (w : Word) (s : State) : (presentCommand w s).hex = s.hex := rfl
@[simp] theorem presentCommand_bits (w : Word) (s : State) : (presentCommand w s).bits = s.bits :=
    rfl
@[simp] theorem presentCommand_grid (w : Word) (s : State) : (presentCommand w s).grid = s.grid :=
    rfl
@[simp] theorem presentCommand_ucnt (w : Word) (s : State) : (presentCommand w s).ucnt = s.ucnt :=
    rfl
@[simp] theorem presentCommand_rcnt (w : Word) (s : State) : (presentCommand w s).rcnt = s.rcnt :=
    rfl
@[simp] theorem presentCommand_err (w : Word) (s : State) : (presentCommand w s).err = s.err := rfl
@[simp] theorem presentCommand_errInfo (w : Word) (s : State) : (presentCommand w s).errInfo = s.errInfo :=
    rfl
@[simp] theorem presentCommand_pending (w : Word) (s : State) : (presentCommand w s).pending = .command w :: s.pending :=
    rfl
@[simp] theorem presentCommand_rsp (w : Word) (s : State) : (presentCommand w s).rsp = s.rsp := rfl

/-! ### `resetEngine` -/

@[simp] theorem resetEngine_n (s : State) : (resetEngine s).n = 256 := rfl
@[simp] theorem resetEngine_rounds (s : State) : (resetEngine s).rounds = 64 := rfl
@[simp] theorem resetEngine_sparse (s : State) : (resetEngine s).sparse = freshSparse 256 := rfl
@[simp] theorem resetEngine_seed (s : State) : (resetEngine s).seed = [] := rfl
@[simp] theorem resetEngine_lens (s : State) : (resetEngine s).lens = [] := rfl
@[simp] theorem resetEngine_digest (s : State) : (resetEngine s).digest = [] := rfl
@[simp] theorem resetEngine_hex (s : State) : (resetEngine s).hex = [] := rfl
@[simp] theorem resetEngine_bits (s : State) : (resetEngine s).bits = [] := rfl
@[simp] theorem resetEngine_grid (s : State) : (resetEngine s).grid = [] := rfl
@[simp] theorem resetEngine_ucnt (s : State) : (resetEngine s).ucnt = 0 := rfl
@[simp] theorem resetEngine_rcnt (s : State) : (resetEngine s).rcnt = 0 := rfl
@[simp] theorem resetEngine_err (s : State) : (resetEngine s).err = 0 := rfl
@[simp] theorem resetEngine_errInfo (s : State) : (resetEngine s).errInfo = 0 := rfl
@[simp] theorem resetEngine_pending (s : State) : (resetEngine s).pending = s.pending := rfl
@[simp] theorem resetEngine_rsp (s : State) : (resetEngine s).rsp = none := rfl

end Sys2Proof.Machine
end

