-- ==== Sys2Proof/Laws/Ops.lean ====
section
/-! SUPPORT. One lemma per shared operation that says once what it can do. -/

namespace Sys2Proof.Machine

/-- A response is a next state: the state with the datum on `RSP`. -/
theorem respond_eq_next {data : Word} {s t : State} (h : respond data s = .next t) : t = answered data s := by
  cases h; rfl

/-- A failure is a next state: the state with the capture and the response. -/
theorem raise_eq_next {e : Error} {info : Word} {s t : State} (h : raise e info s = .next t) :
    t = failed e info s := by
  cases h; rfl

/-- A read answers the present cell, or fails with `OperandRangeError`. -/
theorem respondCell_eq_next {word : Word} {cell : Option Word} {s t : State}
    (h : respondCell word cell s = .next t) :
    (∃ v, cell = some v ∧ t = answered v s) ∨ (cell = none ∧ t = failed .operandRange word s) := by
  cases cell with
  | none => exact .inr ⟨rfl, raise_eq_next h⟩
  | some v => exact .inl ⟨v, rfl, respond_eq_next h⟩

/-- A present cell is answered. -/
@[simp] theorem respondCell_some (word v : Word) (s : State) : respondCell word (some v) s = respond v s := rfl

/-- An absent cell is an operand out of range. -/
@[simp] theorem respondCell_none (word : Word) (s : State) :
    respondCell word none s = raise .operandRange word s := rfl

/-- A read of a space finds a cell exactly below its length. -/
theorem readCell_isSome {α : Type} (space : List α) (idx : Nat) :
    (readCell space idx).isSome ↔ idx < space.length := by
  simp [readCell]

/-- An append adds the cell at the end of a space that has room. -/
theorem appendCell_eq_some {α : Type} {cap : Nat} {space out : List α} {v : α} :
    appendCell cap space v = some out ↔ space.length < cap ∧ out = space ++ [v] := by
  unfold appendCell
  split
  · simp; omega
  · simp only [Option.some.injEq]
    constructor
    · rintro rfl; exact ⟨by omega, rfl⟩
    · rintro ⟨-, rfl⟩; rfl

/-- An append finds no room exactly when the space is full. -/
theorem appendCell_eq_none {α : Type} {cap : Nat} {space : List α} {v : α} :
    appendCell cap space v = none ↔ cap ≤ space.length := by
  unfold appendCell
  split <;> simp [*]

/-- A byte operand is an immediate of at most 255, as it stands. -/
theorem byteOperand_eq_some {imm : Half} {c : Byte} :
    byteOperand imm = some c ↔ imm.toNat ≤ 255 ∧ c = imm.setWidth 8 := by
  unfold byteOperand
  split <;> simp [*, eq_comm]

/-- An immediate above 255 is no byte. -/
theorem byteOperand_eq_none {imm : Half} : byteOperand imm = none ↔ 255 < imm.toNat := by
  unfold byteOperand
  split <;> simp <;> omega

/-- What one length instruction can do: it mixes, under its two preconditions. -/
theorem tryMix_eq_ok {n : Nat} {p q : Sparse} {len : Half} :
    tryMix n p len = .ok q ↔ len.toNat ≤ n ∧ p.skip.toNat ≠ Config.skipMax ∧ q = mixStep n p len := by
  unfold tryMix
  split
  · simp; omega
  · split
    · simp [*]
    · simp only [Except.ok.injEq]
      constructor
      · rintro rfl; exact ⟨by omega, ‹_›, rfl⟩
      · rintro ⟨-, -, rfl⟩; rfl

/-- How one length instruction can fail: the length first, then the room left in `SKIP`. -/
theorem tryMix_eq_error {n : Nat} {p : Sparse} {len : Half} {e : Error} :
    tryMix n p len = .error e ↔
      (n < len.toNat ∧ e = .invalidLength)
        ∨ (len.toNat ≤ n ∧ p.skip.toNat = Config.skipMax ∧ e = .skipOverflow) := by
  unfold tryMix
  split
  · constructor
    · intro h; cases h; exact .inl ⟨‹_›, rfl⟩
    · rintro (⟨-, rfl⟩ | ⟨_, -⟩)
      · rfl
      · omega
  · split
    · constructor
      · intro h; cases h; exact .inr ⟨by omega, ‹_›, rfl⟩
      · rintro (⟨_, -⟩ | ⟨-, -, rfl⟩)
        · omega
        · rfl
    · constructor
      · intro h; cases h
      · rintro (⟨_, -⟩ | ⟨-, h, -⟩)
        · omega
        · exact absurd h ‹_›

/-- CSRW writes only `N`, with a value in range, or `ROUNDS`. -/
theorem csrWritten_eq_some {idx : Byte} {imm : Half} {s t : State} (h : csrWritten idx imm s = some t) :
    (csrOfNumber idx = some .n ∧ 1 ≤ imm.toNat ∧ imm.toNat ≤ Config.nMax ∧ t = writeN imm.toNat s)
      ∨ (csrOfNumber idx = some .rounds ∧ t = writeRounds imm s) := by
  unfold csrWritten at h
  split at h
  · split at h
    · cases h
    · cases h; exact .inl ⟨‹_›, by omega, by omega, rfl⟩
  · cases h; exact .inr ⟨‹_›, rfl⟩
  · cases h

/-- A turn of a list keeps its length. -/
@[simp] theorem length_rotl {α : Type} (k : Nat) (l : List α) : (rotl k l).length = l.length := by
  simp [rotl]; omega

/-- A turn of a list keeps its elements. -/
theorem perm_rotl {α : Type} (k : Nat) (l : List α) : (rotl k l).Perm l := by
  unfold rotl
  exact List.perm_append_comm.trans (by rw [List.take_append_drop])

/-- The reversal only moves cells (R103). -/
theorem perm_reverseFrom (pos len : Nat) (cells : List Byte) : (reverseFrom pos len cells).Perm cells := by
  unfold reverseFrom
  refine (perm_rotl _ _).trans (.trans ?_ (perm_rotl pos cells))
  conv => rhs; rw [← List.take_append_drop len (rotl pos cells)]
  exact (List.reverse_perm _).append_right _

/-- Position `i` of a list turned left by `k` is position `k + i` of the list, around its end. -/
theorem getElem?_rotl {α : Type} {k i : Nat} {l : List α} (hk : k ≤ l.length) (hi : i < l.length) :
    (rotl k l)[i]? = l[(k + i) % l.length]? := by
  unfold rotl
  rw [List.getElem?_append, List.length_drop]
  split
  · rw [List.getElem?_drop, Nat.mod_eq_of_lt (by omega)]
  · have : (k + i) % l.length = i - (l.length - k) := by
      rw [show k + i = i - (l.length - k) + l.length by omega, Nat.add_mod_right,
        Nat.mod_eq_of_lt (by omega)]
    rw [this, List.getElem?_take, if_pos (by omega)]

/-- The reversal cell by cell, counted from the cursor: the first `len` positions in reverse order, every
other position as it was (R101, effect 1). -/
theorem getElem?_reverseFrom {pos len i : Nat} {l : List Byte} (hp : pos < l.length)
    (hl : len ≤ l.length) (hi : i < l.length) :
    (reverseFrom pos len l)[(pos + i) % l.length]? =
      if i < len then l[(pos + len - 1 - i) % l.length]? else l[(pos + i) % l.length]? := by
  have hlen : (((rotl pos l).take len).reverse ++ (rotl pos l).drop len).length = l.length := by
    simp; omega
  have hback : (l.length - pos + (pos + i) % l.length) % l.length = i := by
    rw [Nat.add_mod_mod, show l.length - pos + (pos + i) = i + l.length by omega, Nat.add_mod_right,
      Nat.mod_eq_of_lt hi]
  have hrev : ((rotl pos l).take len).reverse.length = len := by simp; omega
  unfold reverseFrom
  rw [getElem?_rotl (by omega) (by rw [hlen]; exact Nat.mod_lt _ (by omega)), hlen, hback,
    List.getElem?_append, hrev]
  split
  · rw [List.getElem?_reverse (by simp; omega), List.getElem?_take, List.length_take, length_rotl,
      Nat.min_eq_left hl, if_pos (by omega), getElem?_rotl (by omega) (by omega)]
    congr 2; omega
  · rw [List.getElem?_drop, getElem?_rotl (by omega) (by omega)]
    congr 2; omega

/-- The mixing step keeps the number of cells. -/
@[simp] theorem length_mixStep (n : Nat) (p : Sparse) (len : Half) :
    (mixStep n p len).cells.length = p.cells.length := (perm_reverseFrom _ _ _).length_eq

/-- A fresh sparse state of length `n` has `n` cells. -/
@[simp] theorem length_freshSparse (n : Nat) : (freshSparse n).cells.length = n := by simp [freshSparse]

/-- The check phase of RUN passes exactly when no entry exceeds `n` (R130). -/
theorem firstOverlong_eq_none {n : Nat} {lens : List Half} :
    firstOverlong n lens = none ↔ ∀ v ∈ lens, v.toNat ≤ n := by
  simp only [firstOverlong, List.find?_eq_none, decide_eq_true_eq, Nat.not_lt]
  constructor
  · intro h v hv
    obtain ⟨i, hi, rfl⟩ := List.mem_iff_getElem.1 hv
    exact h (lens[i], i) (List.mem_zipIdx_iff_getElem?.2 (by simp [hi]))
  · intro h e he
    exact h _ (List.mem_of_getElem? (List.mem_zipIdx_iff_getElem?.1 he))

/-- The check phase of HEXDEC passes exactly when every character is a hex digit (R155). -/
theorem firstNonHex_eq_none {hex : List Byte} :
    firstNonHex hex = none ↔ ∀ c ∈ hex, (hexVal c).isSome := by
  simp only [firstNonHex, List.find?_eq_none, Option.isNone_iff_eq_none, Option.isSome_iff_ne_none]
  constructor
  · intro h c hc
    obtain ⟨i, hi, rfl⟩ := List.mem_iff_getElem.1 hc
    exact h (hex[i], i) (List.mem_zipIdx_iff_getElem?.2 (by simp [hi]))
  · intro h e he
    exact h _ (List.mem_of_getElem? (List.mem_zipIdx_iff_getElem?.1 he))

/-- Every character that HEXENC writes is a hex digit (R151). -/
theorem hexVal_hexDigit (v : BitVec 4) : hexVal (hexDigit v) = some v := by revert v; decide

/-- The check phase of HEXDEC passes on what HEXENC writes (R158). -/
theorem firstNonHex_flatMap_hexPair (digest : List Byte) : firstNonHex (digest.flatMap hexPair) = none := by
  rw [firstNonHex_eq_none]
  intro c hc
  obtain ⟨b, -, hb⟩ := List.mem_flatMap.1 hc
  simp only [hexPair, List.mem_cons, List.not_mem_nil, or_false] at hb
  rcases hb with rfl | rfl <;> simp [hexVal_hexDigit]

/-- The check phase of REGION passes exactly when every row is as wide as row 0 (R190). -/
theorem firstRagged_eq_none {g : List (List Bool)} :
    firstRagged g = none ↔ ∀ row ∈ g, row.length = firstWidth g := by
  simp [firstRagged, List.findIdx?_eq_none_iff]

/-- The host's next move is taken off the moves it has yet to make. -/
theorem takeMove_eq_some {s t : State} {m : HostMove} :
    takeMove s = some (m, t) ↔ ∃ rest, s.pending = m :: rest ∧ t = { s with pending := rest } := by
  unfold takeMove
  cases s.pending with
  | nil => simp
  | cons m' rest =>
    constructor
    · rintro ⟨⟩; exact ⟨rest, rfl, rfl⟩
    · rintro ⟨_, ⟨⟩, rfl⟩; rfl

end Sys2Proof.Machine
end

