-- ==== Sys2Proof/Laws/Memory.lean ====
section
/-! SUPPORT. Every operation on the address spaces keeps their canonical form `Memory.wf`, and the reset
state has it. -/

namespace Sys2Proof.Machine

/-- The canonical form, part by part. -/
theorem Memory.wf_iff (s : State) :
    Memory.wf s = true ↔ s.seed.length ≤ 240 ∧ s.lens.length ≤ 256 ∧ s.digest.length ≤ 16
      ∧ s.hex.length ≤ 32 ∧ bitRowOk s.bits = true ∧ s.grid.length ≤ 128
      ∧ ∀ row ∈ s.grid, bitRowOk row = true := by
  simp only [Memory.wf, Bool.and_eq_true, decide_eq_true_eq, List.all_eq_true, and_assoc]
  exact Iff.rfl

/-- The form depends on the spaces alone. -/
theorem Memory.wf_congr {s t : State} (h1 : t.seed = s.seed) (h2 : t.lens = s.lens)
    (h3 : t.digest = s.digest) (h4 : t.hex = s.hex) (h5 : t.bits = s.bits) (h6 : t.grid = s.grid) :
    Memory.wf t = Memory.wf s := by
  simp [Memory.wf, h1, h2, h3, h4, h5, h6]

theorem Memory.wf_reset : Memory.wf State.reset = true := rfl

@[simp] theorem Memory.wf_resetEngine (s : State) : Memory.wf (resetEngine s) = true := rfl

@[simp] theorem Memory.wf_answered (data : Word) (s : State) : Memory.wf (answered data s) = Memory.wf s := rfl

@[simp] theorem Memory.wf_failed (e : Error) (info : Word) (s : State) :
    Memory.wf (failed e info s) = Memory.wf s := rfl

@[simp] theorem Memory.wf_clearCapture (s : State) : Memory.wf (clearCapture s) = Memory.wf s := rfl

@[simp] theorem Memory.wf_writeN (v : Nat) (s : State) : Memory.wf (writeN v s) = Memory.wf s := rfl

@[simp] theorem Memory.wf_writeRounds (v : Half) (s : State) : Memory.wf (writeRounds v s) = Memory.wf s := rfl

@[simp] theorem Memory.wf_runList (s : State) : Memory.wf (runList s) = Memory.wf s := rfl

/-- An append that finds room keeps a capacity. -/
theorem length_appendCell {α : Type} {cap : Nat} {space out : List α} {v : α}
    (h : appendCell cap space v = some out) : out.length ≤ cap := by
  obtain ⟨hroom, rfl⟩ := appendCell_eq_some.1 h
  rw [List.length_append]
  exact hroom

/-- A row number has at most three digits. -/
theorem length_rowDigits (r : Nat) : (rowDigits r).length ≤ 3 := by
  unfold rowDigits
  repeat' split
  all_goals simp

/-- A derived Length List has one entry per character and five more. -/
@[simp] theorem length_lengthsOf (chars : List Byte) : (lengthsOf chars).length = chars.length + 5 := by
  simp [lengthsOf, Config.suffix]

/-- DERIVE keeps the form: `SLEN + 5` entries fit (R127). -/
theorem Memory.wf_deriveSeed {s : State} (h : Memory.wf s = true) : Memory.wf (deriveSeed s) = true := by
  rw [Memory.wf_iff] at h ⊢
  obtain ⟨h1, -, h⟩ := h
  exact ⟨h1, by rw [deriveSeed_lens, length_lengthsOf]; omega, h⟩

/-- DERIVER keeps the form: `SLEN + 1 + 3 + 5` entries fit (R128). -/
theorem Memory.wf_deriveRow {s : State} (r : Nat) (h : Memory.wf s = true) :
    Memory.wf (deriveRow r s) = true := by
  have := length_rowDigits r
  rw [Memory.wf_iff] at h ⊢
  obtain ⟨h1, -, h⟩ := h
  refine ⟨h1, ?_, h⟩
  rw [deriveRow_lens, length_lengthsOf, rowString, List.length_append, List.length_cons]
  omega

/-- DENSE keeps the form where `N` is in range: at most 16 blocks (R140). -/
theorem Memory.wf_foldDigest {s : State} (hn : s.n.toNat ≤ 256) (h : Memory.wf s = true) :
    Memory.wf (foldDigest s) = true := by
  rw [Memory.wf_iff] at h ⊢
  obtain ⟨h1, h2, -, h⟩ := h
  refine ⟨h1, h2, ?_, h⟩
  rw [foldDigest_digest, List.length_map, List.length_range, Config.block]
  omega

/-- HEXENC gives two characters per byte (R150). -/
theorem length_flatMap_hexPair (l : List Byte) : (l.flatMap hexPair).length = 2 * l.length := by
  induction l with
  | nil => rfl
  | cons b l ih =>
    rw [List.flatMap_cons, List.length_append, ih, List.length_cons]
    simp only [hexPair, List.length_cons, List.length_nil]
    omega

/-- HEXENC keeps the form (R150). -/
theorem Memory.wf_encodeHex {s : State} (h : Memory.wf s = true) : Memory.wf (encodeHex s) = true := by
  rw [Memory.wf_iff] at h ⊢
  obtain ⟨h1, h2, h3, -, h⟩ := h
  exact ⟨h1, h2, h3, by rw [encodeHex_hex, length_flatMap_hexPair]; omega, h⟩

/-- HEXDEC gives at most four bits per character, a multiple of four in all (R155). -/
theorem length_flatMap_charBits (l : List Byte) :
    (l.flatMap charBits).length ≤ 4 * l.length ∧ (l.flatMap charBits).length % 4 = 0 := by
  induction l with
  | nil => simp
  | cons c l ih =>
    have : (charBits c).length = 4 ∨ (charBits c).length = 0 := by
      unfold charBits; split <;> simp [nibbleBits]
    simp only [List.flatMap_cons, List.length_append, List.length_cons]
    omega

/-- HEXDEC keeps the form (R155). -/
theorem Memory.wf_decodeHex {s : State} (h : Memory.wf s = true) : Memory.wf (decodeHex s) = true := by
  have := length_flatMap_charBits s.hex
  rw [Memory.wf_iff] at h ⊢
  obtain ⟨h1, h2, h3, h4, -, h⟩ := h
  refine ⟨h1, h2, h3, h4, ?_, h⟩
  rw [decodeHex_bits, bitRowOk, Bool.and_eq_true, decide_eq_true_eq, decide_eq_true_eq, Config.gridW]
  omega

/-- GCLR keeps the form (R170). -/
theorem Memory.wf_clearGrid {s : State} (h : Memory.wf s = true) : Memory.wf (clearGrid s) = true := by
  rw [Memory.wf_iff] at h ⊢
  obtain ⟨h1, h2, h3, h4, h5, -⟩ := h
  exact ⟨h1, h2, h3, h4, h5, by simp, by simp⟩

/-- GPUSH keeps the form where the grid has room (R171). -/
theorem Memory.wf_pushRow {s : State} (hg : s.grid.length < 128) (h : Memory.wf s = true) :
    Memory.wf (pushRow s) = true := by
  rw [Memory.wf_iff] at h ⊢
  obtain ⟨h1, h2, h3, h4, h5, -, h7⟩ := h
  refine ⟨h1, h2, h3, h4, h5, ?_, fun row hr => ?_⟩
  · rw [pushRow_grid, List.length_append]
    exact hg
  · rcases List.mem_append.1 hr with hr | hr
    · exact h7 row hr
    · rw [List.mem_singleton.1 hr]; exact h5

end Sys2Proof.Machine
end

