-- ==== Sys2Proof/Laws/PerInstr.lean ====
section
/-! SUPPORT. Per instruction: its command word fits the `match` and `mask` of its row of 30_encoding.md
R84, as R82 asks of a word that encodes the row's command. A length instruction has no command word, and
every 16-bit value fits its row. -/

namespace Sys2Proof.Laws

/-- The `mask` and `match` columns of R84 (for `LEN`, the table's 16-bit mask and match). -/
def rowBits : Instr → Word × Word
  | .csrr _ => (0xFF00FFFF, 0x01000000)
  | .csrw _ _ => (0xFF000000, 0x02000000)
  | .clrerr => (0xFFFFFFFF, 0x03000000)
  | .reset => (0xFFFFFFFF, 0x04000000)
  | .seedclr => (0xFFFFFFFF, 0x10000000)
  | .seedpush _ => (0xFFFF0000, 0x11000000)
  | .seedget _ => (0xFF00FFFF, 0x12000000)
  | .lclr => (0xFFFFFFFF, 0x14000000)
  | .lpush _ => (0xFFFF0000, 0x15000000)
  | .lget _ => (0xFF00FFFF, 0x16000000)
  | .derive => (0xFFFFFFFF, 0x18000000)
  | .deriver _ => (0xFF00FFFF, 0x19000000)
  | .init => (0xFFFFFFFF, 0x20000000)
  | .mix _ => (0xFFFF0000, 0x21000000)
  | .run => (0xFFFFFFFF, 0x22000000)
  | .sget _ => (0xFF00FFFF, 0x23000000)
  | .dense => (0xFFFFFFFF, 0x30000000)
  | .dget _ => (0xFF00FFFF, 0x31000000)
  | .dclr => (0xFFFFFFFF, 0x32000000)
  | .dpush _ => (0xFFFF0000, 0x33000000)
  | .hexenc => (0xFFFFFFFF, 0x40000000)
  | .xget _ => (0xFF00FFFF, 0x41000000)
  | .xclr => (0xFFFFFFFF, 0x42000000)
  | .xpush _ => (0xFFFF0000, 0x43000000)
  | .hexdec => (0xFFFFFFFF, 0x44000000)
  | .bget _ => (0xFF00FFFF, 0x45000000)
  | .gclr => (0xFFFFFFFF, 0x50000000)
  | .gpush => (0xFFFFFFFF, 0x51000000)
  | .gget _ _ => (0xFF000000, 0x52000000)
  | .gwget _ => (0xFF00FFFF, 0x53000000)
  | .count => (0xFFFFFFFF, 0x54000000)
  | .hash => (0xFFFFFFFF, 0x58000000)
  | .rowgen => (0xFFFFFFFF, 0x59000000)
  | .region => (0xFFFFFFFF, 0x60000000)
  | .len _ => (0x00000000, 0x00000000)

/-- The word an instruction's code gives fits its row: `(w and mask) = match`. -/
def FitsFormat.Statement (i : Instr) : Prop := commandWord i &&& (rowBits i).1 = (rowBits i).2

/-- The bits of an assembled word under an assembled mask, field by field. -/
theorem assemble_and (op op' idx idx' : Byte) (imm imm' : Half) :
    assemble op idx imm &&& assemble op' idx' imm' = assemble (op &&& op') (idx &&& idx') (imm &&& imm') := by
  unfold assemble
  rw [BitVec.and_append, BitVec.and_append]

/-- Under the mask of format `I`, an assembled word with `idx` 0 keeps its opcode alone (R82). -/
theorem and_mask_i (op : Byte) (imm : Half) :
    assemble op 0#8 imm &&& (0xFFFF0000 : Word) = assemble op 0#8 0#16 := by
  rw [show (0xFFFF0000 : Word) = assemble 0xFF#8 0xFF#8 0#16 from rfl, assemble_and]
  congr 1
  · exact BitVec.and_allOnes
  · exact BitVec.and_zero

/-- Under the mask of format `X`, an assembled word with `imm` 0 keeps its opcode alone (R82). -/
theorem and_mask_x (op idx : Byte) :
    assemble op idx 0#16 &&& (0xFF00FFFF : Word) = assemble op 0#8 0#16 := by
  rw [show (0xFF00FFFF : Word) = assemble 0xFF#8 0#8 0xFFFF#16 from rfl, assemble_and]
  congr 1
  · exact BitVec.and_allOnes
  · exact BitVec.and_zero

/-- Under the mask of format `XI`, an assembled word keeps its opcode alone (R82). -/
theorem and_mask_xi (op idx : Byte) (imm : Half) :
    assemble op idx imm &&& (0xFF000000 : Word) = assemble op 0#8 0#16 := by
  rw [show (0xFF000000 : Word) = assemble 0xFF#8 0#8 0#16 from rfl, assemble_and]
  congr 1
  · exact BitVec.and_allOnes
  · exact BitVec.and_zero
  · exact BitVec.and_zero

theorem FitsFormat.csrr (idx : Byte) : FitsFormat.Statement (.csrr idx) :=
  and_mask_x 0x01#8 idx
theorem FitsFormat.csrw (idx : Byte) (imm : Half) : FitsFormat.Statement (.csrw idx imm) :=
  and_mask_xi 0x02#8 idx imm
theorem FitsFormat.clrerr : FitsFormat.Statement (.clrerr) := rfl
theorem FitsFormat.reset : FitsFormat.Statement (.reset) := rfl
theorem FitsFormat.seedclr : FitsFormat.Statement (.seedclr) := rfl
theorem FitsFormat.seedpush (imm : Half) : FitsFormat.Statement (.seedpush imm) :=
  and_mask_i 0x11#8 imm
theorem FitsFormat.seedget (idx : Byte) : FitsFormat.Statement (.seedget idx) :=
  and_mask_x 0x12#8 idx
theorem FitsFormat.lclr : FitsFormat.Statement (.lclr) := rfl
theorem FitsFormat.lpush (imm : Half) : FitsFormat.Statement (.lpush imm) :=
  and_mask_i 0x15#8 imm
theorem FitsFormat.lget (idx : Byte) : FitsFormat.Statement (.lget idx) :=
  and_mask_x 0x16#8 idx
theorem FitsFormat.derive : FitsFormat.Statement (.derive) := rfl
theorem FitsFormat.deriver (idx : Byte) : FitsFormat.Statement (.deriver idx) :=
  and_mask_x 0x19#8 idx
theorem FitsFormat.init : FitsFormat.Statement (.init) := rfl
theorem FitsFormat.mix (imm : Half) : FitsFormat.Statement (.mix imm) :=
  and_mask_i 0x21#8 imm
theorem FitsFormat.run : FitsFormat.Statement (.run) := rfl
theorem FitsFormat.sget (idx : Byte) : FitsFormat.Statement (.sget idx) :=
  and_mask_x 0x23#8 idx
theorem FitsFormat.dense : FitsFormat.Statement (.dense) := rfl
theorem FitsFormat.dget (idx : Byte) : FitsFormat.Statement (.dget idx) :=
  and_mask_x 0x31#8 idx
theorem FitsFormat.dclr : FitsFormat.Statement (.dclr) := rfl
theorem FitsFormat.dpush (imm : Half) : FitsFormat.Statement (.dpush imm) :=
  and_mask_i 0x33#8 imm
theorem FitsFormat.hexenc : FitsFormat.Statement (.hexenc) := rfl
theorem FitsFormat.xget (idx : Byte) : FitsFormat.Statement (.xget idx) :=
  and_mask_x 0x41#8 idx
theorem FitsFormat.xclr : FitsFormat.Statement (.xclr) := rfl
theorem FitsFormat.xpush (imm : Half) : FitsFormat.Statement (.xpush imm) :=
  and_mask_i 0x43#8 imm
theorem FitsFormat.hexdec : FitsFormat.Statement (.hexdec) := rfl
theorem FitsFormat.bget (idx : Byte) : FitsFormat.Statement (.bget idx) :=
  and_mask_x 0x45#8 idx
theorem FitsFormat.gclr : FitsFormat.Statement (.gclr) := rfl
theorem FitsFormat.gpush : FitsFormat.Statement (.gpush) := rfl
theorem FitsFormat.gget (idx : Byte) (imm : Half) : FitsFormat.Statement (.gget idx imm) :=
  and_mask_xi 0x52#8 idx imm
theorem FitsFormat.gwget (idx : Byte) : FitsFormat.Statement (.gwget idx) :=
  and_mask_x 0x53#8 idx
theorem FitsFormat.count : FitsFormat.Statement (.count) := rfl
theorem FitsFormat.hash : FitsFormat.Statement (.hash) := rfl
theorem FitsFormat.rowgen : FitsFormat.Statement (.rowgen) := rfl
theorem FitsFormat.region : FitsFormat.Statement (.region) := rfl
theorem FitsFormat.len (v : Half) : FitsFormat.Statement (.len v) :=
  BitVec.and_zero

end Sys2Proof.Laws
end

