-- ==== Sys2Proof/Laws/Step.lean ====
section
/-! SUPPORT. What a step can do, said once: the cases a proof about `step` divides into; and how a
sequence of instructions is taken apart. -/

namespace Sys2Proof.Machine

/-- A step that answers a next state is an idle step, an assertion of `RST`, the execution of a decoded
command, or the failure of a word that selects none (R11, R13, R85, R86). -/
theorem step_eq_next {s t : State} (h : step s = .next t) :
    (s.pending = [] ∧ t = s) ∨
    (∃ rest, s.pending = .rst :: rest ∧ t = { State.reset with pending := rest }) ∨
    (∃ w rest i, s.pending = .command w :: rest ∧ decode (.command w) = .ok i ∧
      exec i { s with pending := rest } = .next t) ∨
    (∃ w rest e, s.pending = .command w :: rest ∧ decode (.command w) = .error e ∧
      t = failed .illegalCommand w { s with pending := rest }) := by
  unfold step takeMove at h
  cases hp : s.pending with
  | nil =>
    rw [hp] at h
    cases h
    exact .inl ⟨rfl, rfl⟩
  | cons m rest =>
    rw [hp] at h
    cases m with
    | rst =>
      cases h
      exact .inr (.inl ⟨rest, rfl, rfl⟩)
    | command w =>
      cases hd : decode (.command w) with
      | ok i =>
        simp only [hd] at h
        exact .inr (.inr (.inl ⟨w, rest, i, rfl, hd, h⟩))
      | error e =>
        simp only [hd] at h
        exact .inr (.inr (.inr ⟨w, rest, e, rfl, hd, raise_eq_next h⟩))

/-- A sequence of instructions runs its first and then the rest. -/
theorem execAll_cons {i : Instr} {rest : List Instr} {s t : State} (h : exec i s = .next t) :
    execAll (i :: rest) s = execAll rest t := by
  simp only [execAll, h]

/-- A RUN whose check phase passes takes its execute phase (R130). -/
theorem execRun_of_passed {s : State} (h : firstOverlong s.n.toNat s.lens = none) :
    execRun s = .next (answered 0 (runList s)) := by
  unfold execRun
  split
  · rfl
  · simp only [h]; rfl

/-- A DENSE over a length that is a multiple of 16 takes its execute phase (R140). -/
theorem execDense_of_multiple {s : State} (h : s.n.toNat % 16 = 0) :
    execDense s = .next (answered 0 (foldDigest s)) := if_neg (not_not_intro h)

/-- A HEXDEC whose check phase passes takes its execute phase (R155). -/
theorem execHexdec_of_passed {s : State} (h : firstNonHex s.hex = none) :
    execHexdec s = .next (answered 0 (decodeHex s)) := by
  simp only [execHexdec, h]; rfl

end Sys2Proof.Machine
end

