-- ==== Sys2Proof/Tests/Slice0.lean ====
section
/-! SUPPORT. The model's own tests: an ill-formed term for each check of `WellFormed`, a word written out from
30_encoding.md R84 for each constructor, one step of each instruction with the result that
95_test_vectors.md gives, and, for each statement with hypotheses, a state and operands that meet them. -/

namespace Sys2Proof.Tests

open Sys2Proof Sys2Proof.Machine Sys2Proof.Certificates

/-! ### Helpers -/

/-- The next state of an outcome. -/
def after : Result → Option State
  | .next t => some t
  | _ => none

/-- The status and data on `RSP` after an outcome. -/
def answer (r : Result) : Option (Nat × Nat) :=
  (after r).bind fun t => t.rsp.map fun a => (a.status.toNat, a.data.toNat)

/-- The cells, the cursor and the skip size after an outcome. -/
def mixed (r : Result) : Option (List Nat × Nat × Nat) :=
  (after r).map fun t => (t.sparse.cells.map BitVec.toNat, t.sparse.pos.toNat, t.sparse.skip.toNat)

/-- The fresh sparse state of length `k`. -/
def ring (k : Nat) : State :=
  { State.reset with n := BitVec.ofNat 9 k, rounds := 1, sparse := freshSparse k }

/-- The state with this seed. -/
def seeded (chars : List Byte) : State := { ring 5 with seed := chars }

/-- The state with this grid. -/
def gridded (g : List (List Bool)) : State := { ring 5 with grid := g }

/-- The row of cells that four bits draw, most significant first. -/
def row4 (v : BitVec 4) : List Bool := nibbleBits v

/-- The state whose host is about to present this word. -/
def facing (w : Word) : State := { ring 5 with pending := [.command w] }

/-! ### Well-formed and ill-formed terms -/

theorem test_wellFormed_at_the_bounds :
    WellFormed (.csrr 0x0D) ∧ WellFormed (.csrr 0x10) ∧ WellFormed (.csrr 0x14) ∧ WellFormed (.csrw 0 1) ∧
    WellFormed (.csrw 0 256) ∧ WellFormed (.csrw 1 0) ∧ WellFormed (.csrw 1 65535) ∧
    WellFormed (.seedpush 255) ∧ WellFormed (.dpush 255) ∧ WellFormed (.xpush 255) ∧
    WellFormed (.seedget 239) ∧ WellFormed (.dget 15) ∧ WellFormed (.xget 31) ∧ WellFormed (.bget 127) ∧
    WellFormed (.gget 127 127) ∧ WellFormed (.gwget 127) ∧ WellFormed (.mix 256) ∧
    WellFormed (.len 256) := by decide

theorem test_illFormed_csrr_undefined_low : WellFormed (.csrr 0x0E) = false := by decide
theorem test_illFormed_csrr_undefined_gap : WellFormed (.csrr 0x0F) = false := by decide
theorem test_illFormed_csrr_undefined_high : WellFormed (.csrr 0x15) = false := by decide
theorem test_illFormed_csrw_length_zero : WellFormed (.csrw 0 0) = false := by decide
theorem test_illFormed_csrw_length_above : WellFormed (.csrw 0 257) = false := by decide
theorem test_illFormed_csrw_read_only : WellFormed (.csrw 2 0) = false := by decide
theorem test_illFormed_seedpush_above_byte : WellFormed (.seedpush 256) = false := by decide
theorem test_illFormed_dpush_above_byte : WellFormed (.dpush 256) = false := by decide
theorem test_illFormed_xpush_above_byte : WellFormed (.xpush 256) = false := by decide
theorem test_illFormed_seedget_beyond : WellFormed (.seedget 240) = false := by decide
theorem test_illFormed_dget_beyond : WellFormed (.dget 16) = false := by decide
theorem test_illFormed_xget_beyond : WellFormed (.xget 32) = false := by decide
theorem test_illFormed_bget_beyond : WellFormed (.bget 128) = false := by decide
theorem test_illFormed_gget_row_beyond : WellFormed (.gget 128 0) = false := by decide
theorem test_illFormed_gget_column_beyond : WellFormed (.gget 0 128) = false := by decide
theorem test_illFormed_gwget_beyond : WellFormed (.gwget 128) = false := by decide
theorem test_illFormed_mix_above : WellFormed (.mix 257) = false := by decide
theorem test_illFormed_len_above : WellFormed (.len 257) = false := by decide

/-! ### Decoding: a word for each constructor, bit by bit from R84 (`op`, `idx`, `imm`) -/

/-- A word from its 8, 8 and 16 written bits. -/
def bits (op idx : Byte) (imm : Half) : Code := .command (op ++ idx ++ imm)

theorem test_decode_csrr : decode (bits 0b00000001 0b00001101 0b0000000000000000) = .ok (.csrr 13) := rfl
theorem test_decode_csrw : decode (bits 0b00000010 0b00000001 0b1000000000000101) = .ok (.csrw 1 32773) := rfl
theorem test_decode_clrerr : decode (bits 0b00000011 0b00000000 0b0000000000000000) = .ok .clrerr := rfl
theorem test_decode_reset : decode (bits 0b00000100 0b00000000 0b0000000000000000) = .ok .reset := rfl
theorem test_decode_seedclr : decode (bits 0b00010000 0b00000000 0b0000000000000000) = .ok .seedclr := rfl
theorem test_decode_seedpush : decode (bits 0b00010001 0b00000000 0b0000000001100110) = .ok (.seedpush 102) := rfl
theorem test_decode_seedget : decode (bits 0b00010010 0b00000111 0b0000000000000000) = .ok (.seedget 7) := rfl
theorem test_decode_lclr : decode (bits 0b00010100 0b00000000 0b0000000000000000) = .ok .lclr := rfl
theorem test_decode_lpush : decode (bits 0b00010101 0b00000000 0b1111111111111111) = .ok (.lpush 65535) := rfl
theorem test_decode_lget : decode (bits 0b00010110 0b00000101 0b0000000000000000) = .ok (.lget 5) := rfl
theorem test_decode_derive : decode (bits 0b00011000 0b00000000 0b0000000000000000) = .ok .derive := rfl
theorem test_decode_deriver : decode (bits 0b00011001 0b01111111 0b0000000000000000) = .ok (.deriver 127) := rfl
theorem test_decode_init : decode (bits 0b00100000 0b00000000 0b0000000000000000) = .ok .init := rfl
theorem test_decode_mix : decode (bits 0b00100001 0b00000000 0b0000000100000000) = .ok (.mix 256) := rfl
theorem test_decode_run : decode (bits 0b00100010 0b00000000 0b0000000000000000) = .ok .run := rfl
theorem test_decode_sget : decode (bits 0b00100011 0b11001000 0b0000000000000000) = .ok (.sget 200) := rfl
theorem test_decode_dense : decode (bits 0b00110000 0b00000000 0b0000000000000000) = .ok .dense := rfl
theorem test_decode_dget : decode (bits 0b00110001 0b00001111 0b0000000000000000) = .ok (.dget 15) := rfl
theorem test_decode_dclr : decode (bits 0b00110010 0b00000000 0b0000000000000000) = .ok .dclr := rfl
theorem test_decode_dpush : decode (bits 0b00110011 0b00000000 0b0000000010100101) = .ok (.dpush 165) := rfl
theorem test_decode_hexenc : decode (bits 0b01000000 0b00000000 0b0000000000000000) = .ok .hexenc := rfl
theorem test_decode_xget : decode (bits 0b01000001 0b00011111 0b0000000000000000) = .ok (.xget 31) := rfl
theorem test_decode_xclr : decode (bits 0b01000010 0b00000000 0b0000000000000000) = .ok .xclr := rfl
theorem test_decode_xpush : decode (bits 0b01000011 0b00000000 0b0000000001100001) = .ok (.xpush 97) := rfl
theorem test_decode_hexdec : decode (bits 0b01000100 0b00000000 0b0000000000000000) = .ok .hexdec := rfl
theorem test_decode_bget : decode (bits 0b01000101 0b00001011 0b0000000000000000) = .ok (.bget 11) := rfl
theorem test_decode_gclr : decode (bits 0b01010000 0b00000000 0b0000000000000000) = .ok .gclr := rfl
theorem test_decode_gpush : decode (bits 0b01010001 0b00000000 0b0000000000000000) = .ok .gpush := rfl
theorem test_decode_gget : decode (bits 0b01010010 0b00000001 0b0000000000000100) = .ok (.gget 1 4) := rfl
theorem test_decode_gwget : decode (bits 0b01010011 0b00000010 0b0000000000000000) = .ok (.gwget 2) := rfl
theorem test_decode_count : decode (bits 0b01010100 0b00000000 0b0000000000000000) = .ok .count := rfl
theorem test_decode_hash : decode (bits 0b01011000 0b00000000 0b0000000000000000) = .ok .hash := rfl
theorem test_decode_rowgen : decode (bits 0b01011001 0b00000000 0b0000000000000000) = .ok .rowgen := rfl
theorem test_decode_region : decode (bits 0b01100000 0b00000000 0b0000000000000000) = .ok .region := rfl
theorem test_decode_len : decode (.length 0b0000000100000101) = .ok (.len 261) := rfl

/-- The illegal words of 95_test_vectors.md section 2.1. -/
theorem test_illegal_words :
    [0x00000000, 0x05000000, 0xFF000000, 0x1A000000, 0x57000000, 0x61000000, 0x03000001, 0x03010000,
      0x22000001, 0x22010000, 0x10000001, 0x59FF0000, 0x21010003, 0x23000001, 0x01000001,
      0xFFFFFFFF].all (fun w : Word => answer (step (facing w)) = some (0x10, w.toNat)) = true := by decide +kernel

/-- The table's two widths, and no other. -/
theorem test_table_words :
    decodeTableWord 32 0x21000003 = some (.mix 3) ∧ decodeTableWord 16 261 = some (.len 261) ∧
    decodeTableWord 32 0x21010003 = none ∧ decodeTableWord 8 0x21 = none := by decide

/-! ### The system commands (46_system.md examples; 95_test_vectors.md section 2.2) -/

theorem test_csrr_reset_values :
    answer (exec (.csrr 0x00) State.reset) = some (0, 256) ∧
    answer (exec (.csrr 0x01) State.reset) = some (0, 64) ∧
    answer (exec (.csrr 0x12) State.reset) = some (0, 73) := by decide

theorem test_csrr_undefined : answer (exec (.csrr 0x0E) State.reset) = some (0x11, 0x010E0000) := by decide

theorem test_csrw_n : mixed (exec (.csrw 0 5) State.reset) = some ([0, 1, 2, 3, 4], 0, 0) := by decide

theorem test_csrw_n_refused :
    answer (exec (.csrw 0 257) State.reset) = some (0x11, 0x02000101) ∧
    answer (exec (.csrw 3 0) State.reset) = some (0x11, 0x02030000) := by decide

/-- R202: the capture is cleared. -/
theorem test_clrerr :
    (after (exec .clrerr { ring 5 with err := 1, errInfo := 6 })).map (fun t => (t.err, t.errInfo)) =
      some (0, 0) := by decide

/-- R203: the shortened sequence is whole again and the response is success. -/
theorem test_reset :
    (after (exec .reset (ring 5))).map (fun t => (t.n, t.sparse.cells.length, t.rsp)) =
      some (256, 256, some ⟨0, 0⟩) := by decide +kernel

/-! ### The seed and the Length List (95_test_vectors.md section 2.4) -/

theorem test_seedclr : (after (exec .seedclr (seeded [102]))).map (·.seed) = some [] := by decide

theorem test_seedpush : (after (exec (.seedpush 102) (seeded [7]))).map (·.seed) = some [7, 102] := by decide

theorem test_seedpush_range_before_capacity :
    answer (exec (.seedpush 256) (seeded (List.replicate 240 65))) = some (0x11, 0x11000100) ∧
    answer (exec (.seedpush 65) (seeded (List.replicate 240 65))) = some (0x12, 0x11000041) := by decide +kernel

theorem test_seedget :
    answer (exec (.seedget 1) (seeded [255, 0])) = some (0, 0) ∧
    answer (exec (.seedget 2) (seeded [255, 0])) = some (0x11, 0x12020000) := by decide

theorem test_lclr : (after (exec .lclr { ring 5 with lens := [3, 4] })).map (·.lens) = some [] := by decide

theorem test_lpush :
    (after (exec (.lpush 65535) { ring 5 with lens := [3] })).map (·.lens) = some [3, 65535] := by decide

theorem test_lpush_full :
    answer (exec (.lpush 1) { ring 5 with lens := List.replicate 256 0 }) = some (0x12, 0x15000001) := by decide +kernel

theorem test_lget :
    answer (exec (.lget 1) { ring 5 with lens := [3, 256] }) = some (0, 256) ∧
    answer (exec (.lget 2) { ring 5 with lens := [3, 256] }) = some (0x11, 0x16020000) := by decide

theorem test_derive :
    (after (exec .derive (seeded [49, 44, 50, 44, 51]))).map (·.lens) =
      some [49, 44, 50, 44, 51, 17, 31, 73, 47, 23] := by decide

theorem test_deriver_digits :
    (after (exec (.deriver 9) (seeded [49]))).map (·.lens) = some [49, 45, 57, 17, 31, 73, 47, 23] ∧
    (after (exec (.deriver 10) (seeded [49]))).map (·.lens) = some [49, 45, 49, 48, 17, 31, 73, 47, 23] ∧
    (after (exec (.deriver 255) (seeded [49]))).map (·.lens) =
      some [49, 45, 50, 53, 53, 17, 31, 73, 47, 23] := by decide

theorem test_deriver_full_seed :
    (after (exec (.deriver 255) (seeded (List.replicate 240 65)))).map (·.lens.length) = some 249 := by decide +kernel

/-! ### The mixer and the round runner (95_test_vectors.md sections 2.3 and 2.5) -/

/-- The wrap across the end, section 2.3. -/
def wrapState : State := { ring 7 with sparse := { freshSparse 7 with pos := 6, skip := 1000 } }

theorem test_init : mixed (exec .init wrapState) = some ([0, 1, 2, 3, 4, 5, 6], 0, 0) := by decide

theorem test_mix_wraps : mixed (exec (.mix 4) wrapState) = some ([1, 0, 6, 3, 4, 5, 2], 2, 1001) := by decide

/-- Section 2.3, large skip, with `N` = 7, which does not divide `2^32`: `6 + 3 + 4294967294` is 4 mod 7
(cut to 32 bits it would be 0). -/
theorem test_mix_exact_sum_and_overflow :
    (mixed (exec (.mix 3) { wrapState with sparse := { freshSparse 7 with pos := 6, skip := 0xFFFFFFFE } })).map
      (·.2) = some (4, 4294967295) ∧
    answer (exec (.mix 0) { wrapState with sparse := { freshSparse 7 with skip := 0xFFFFFFFF } }) =
      some (0x13, 0x21000000) ∧
    answer (exec (.mix 300) { wrapState with sparse := { freshSparse 7 with skip := 0xFFFFFFFF } }) =
      some (0x01, 300) := by decide

theorem test_len_mixes_without_a_response :
    mixed (exec (.len 4) wrapState) = some ([1, 0, 6, 3, 4, 5, 2], 2, 1001) ∧
    (after (exec (.len 4) wrapState)).map (·.rsp) = some none := by decide

/-- The document's first vector: `[3,4,1,5]` over `N` = 5, one round (T1). -/
theorem test_run :
    mixed (exec .run { ring 5 with lens := [3, 4, 1, 5] }) = some ([3, 4, 2, 1, 0], 4, 4) := by decide

theorem test_run_refuses_the_fifth_entry :
    answer (exec .run { ring 5 with lens := [3, 4, 1, 5, 6] }) = some (0x01, 0x00040006) := by decide

theorem test_sget :
    answer (exec (.sget 6) wrapState) = some (0, 6) ∧
    answer (exec (.sget 7) wrapState) = some (0x11, 0x23070000) := by decide

/-! ### The dense reducer (95_test_vectors.md section 2.6) -/

/-- A fold that is not zero: with cells 15 and 16 of the identity exchanged, `0 xor … xor 14 xor 16` is
`15 xor 16` = 31, and so is the fold of the second block. -/
theorem test_dense :
    (after (exec .dense
      { ring 32 with
        sparse :=
          { freshSparse 32 with
            cells := ((List.range 32).map (BitVec.ofNat 8)).set 15 16 |>.set 16 15 } })).map (·.digest) =
      some [31, 31] := by decide +kernel

theorem test_dense_refuses_24 : answer (exec .dense (ring 24)) = some (0x02, 24) := by decide

theorem test_dget :
    answer (exec (.dget 1) { ring 5 with digest := [9, 165] }) = some (0, 165) ∧
    answer (exec (.dget 2) { ring 5 with digest := [9, 165] }) = some (0x11, 0x31020000) := by decide

theorem test_dclr : (after (exec .dclr { ring 5 with digest := [9] })).map (·.digest) = some [] := by decide

theorem test_dpush : (after (exec (.dpush 165) { ring 5 with digest := [9] })).map (·.digest) = some [9, 165] := by
  decide

theorem test_dpush_refused :
    answer (exec (.dpush 256) (ring 5)) = some (0x11, 0x33000100) ∧
    answer (exec (.dpush 1) { ring 5 with digest := List.replicate 16 0 }) = some (0x12, 0x33000001) := by decide

/-! ### The hex codec (95_test_vectors.md section 2.7) -/

theorem test_hexenc :
    (after (exec .hexenc { ring 5 with digest := [0x0F, 0xA5] })).map (·.hex) = some [0x30, 0x66, 0x61, 0x35] := by
  decide

theorem test_xget :
    answer (exec (.xget 1) { ring 5 with hex := [0x30, 0x66] }) = some (0, 0x66) ∧
    answer (exec (.xget 2) { ring 5 with hex := [0x30, 0x66] }) = some (0x11, 0x41020000) := by decide

theorem test_xclr : (after (exec .xclr { ring 5 with hex := [0x30] })).map (·.hex) = some [] := by decide

theorem test_xpush : (after (exec (.xpush 0x47) { ring 5 with hex := [0x30] })).map (·.hex) = some [0x30, 0x47] := by
  decide

theorem test_xpush_refused :
    answer (exec (.xpush 256) (ring 5)) = some (0x11, 0x43000100) ∧
    answer (exec (.xpush 0x66) { ring 5 with hex := List.replicate 32 0x66 }) = some (0x12, 0x43000066) := by decide

theorem test_hexdec :
    (after (exec .hexdec { ring 5 with hex := [0x61, 0x30, 0x63] })).map (·.bits) =
      some [true, false, true, false, false, false, false, false, true, true, false, false] := by decide

/-- The characters just outside the classes. -/
theorem test_hexdec_refused :
    [0x2F, 0x3A, 0x41, 0x60, 0x67].all (fun c : Byte =>
      answer (exec .hexdec { ring 5 with hex := [0x31, c] }) = some (0x03, 0x100 + c.toNat)) = true := by decide

theorem test_bget :
    answer (exec (.bget 0) { ring 5 with bits := row4 0xA }) = some (0, 1) ∧
    answer (exec (.bget 4) { ring 5 with bits := row4 0xA }) = some (0x11, 0x45040000) := by decide

/-! ### The grid, the counts and the regions (95_test_vectors.md sections 2.8 and 2.9) -/

theorem test_gclr : (after (exec .gclr (gridded [row4 0xF]))).map (·.grid) = some [] := by decide

theorem test_gpush :
    (after (exec .gpush { gridded [row4 0xA] with bits := row4 0x5 })).map (·.grid) = some [row4 0xA, row4 0x5] := by
  decide

theorem test_gpush_full :
    answer (exec .gpush (gridded (List.replicate 128 []))) = some (0x12, 0x51000000) := by decide +kernel

theorem test_gget :
    answer (exec (.gget 1 1) (gridded [row4 0xA, row4 0x5])) = some (0, 1) ∧
    answer (exec (.gget 0 1) (gridded [row4 0xA, row4 0x5])) = some (0, 0) := by decide

theorem test_gget_absent :
    answer (exec (.gget 1 4) (gridded [row4 0xA, row4 0x5])) = some (0x11, 0x52010004) ∧
    answer (exec (.gget 2 0) (gridded [row4 0xA, row4 0x5])) = some (0x11, 0x52020000) := by decide

theorem test_gwget :
    answer (exec (.gwget 2) (gridded [row4 0xA, row4 0x5, row4 0xF ++ row4 0xF])) = some (0, 8) ∧
    answer (exec (.gwget 2) (gridded [row4 0xA, row4 0x5])) = some (0x11, 0x53020000) := by decide

/-- COUNT accepts a ragged grid. -/
theorem test_count :
    (after (exec .count (gridded [row4 0xA, row4 0x5, row4 0xF ++ row4 0xF]))).map (fun t => (t.ucnt, t.rsp)) =
      some (12, some ⟨0, 12⟩) := by decide

/-- A path that the row-major scan meets twice is one region; cells that touch at a corner are not. -/
theorem test_region :
    answer (exec .region (gridded [row4 0xD, row4 0x5, row4 0x7])) = some (0, 1) ∧
    answer (exec .region (gridded [row4 0x9, row4 0x6])) = some (0, 3) ∧
    answer (exec .region (gridded [row4 0xA, row4 0x5])) = some (0, 4) ∧
    answer (exec .region (gridded [])) = some (0, 0) := by decide

theorem test_region_ragged :
    answer (exec .region (gridded [row4 0xF, row4 0x0, row4 0xF, row4 0x0 ++ row4 0xF])) = some (0x04, 3) ∧
    answer (exec .region (gridded [[], row4 0xF])) = some (0x04, 1) := by decide

/-! ### The ports -/

/-- R215, R216: the first failure stays captured. -/
theorem test_first_failure_is_captured :
    (after (step { facing 0x23070000 with err := 0x10, errInfo := 7 })).map (fun t => (t.err, t.errInfo, t.rsp)) =
      some (0x10, 7, some ⟨0x11, 0x23070000⟩) := by decide

theorem test_rst :
    (after (step { ring 5 with err := 3, rsp := some ⟨0, 0⟩, pending := [.rst, .command 5] })).map
      (fun t => (t.n, t.err, t.rsp, t.pending)) = some (256, 0, none, [.command 5]) := by decide +kernel

/-- A table row of 16 bits: RUN executes the one entry of the Length List. -/
theorem test_withFetchWord_length :
    mixed (step ((ring 5).withFetchWord 16 3)) = some ([2, 1, 0, 3, 4], 3, 1) := by decide

/-! ### The macros (95_test_vectors.md T3 and section 2.10) -/

/-- The document's hash of the empty string (T3). -/
theorem test_hash :
    (after (exec .hash (seeded []))).map (·.hex) =
      some ("a2582a3a0e66e6e86e3812dcb672a272".toList.map fun c => BitVec.ofNat 8 c.toNat) := by
  decide +kernel

theorem test_rowgen :
    (after (exec .rowgen (seeded [102]))).map (fun t => (t.n, t.rounds, t.grid.length, t.rsp)) =
      some (256, 64, 128, some ⟨0, 0⟩) := by decide +kernel

/-! ### Witnesses: a state and operands that meet the hypotheses of each statement that has some

A statement with several clauses has a witness for each, at the bounds of its ranges. -/

/-- A state whose every part a decision procedure finds legal. -/
theorem legal_of_parts {s : State} (h1 : 1 ≤ s.n.toNat ∧ s.n.toNat ≤ 256)
    (h2 : (s.sparse.cells.map BitVec.toNat).Perm (List.range s.n.toNat)) (h3 : s.sparse.pos.toNat < s.n.toNat)
    (h4 : Memory.wf s = true) (h5 : s.ucnt.toNat ≤ 16384)
    (h6 : s.err.toNat ∈ [0x00, 0x01, 0x02, 0x03, 0x04, 0x10, 0x11, 0x12, 0x13]) (h7 : s.err = 0 → s.errInfo = 0) :
    Legal s := ⟨⟨h1.1, h1.2, h2, h3⟩, h4, h5, h6, h7⟩

theorem test_legal_ring5 : Legal (ring 5) := by
  apply legal_of_parts <;> decide

theorem test_witness_EncodeInvertsDecode :
    decode (.command 0x21000003) = .ok (.mix 3) ∧ decode (.length 261) = .ok (.len 261) := ⟨rfl, rfl⟩

theorem test_witness_StepRunsTheDecodedCommand :
    (facing 0x21000003).pending = .command 0x21000003 :: [] ∧
    decode (.command 0x21000003) = .ok (.mix 3) := ⟨rfl, rfl⟩

theorem test_witness_IllegalWordFailsAlone :
    (∀ w, (facing w).pending = .command w :: []) ∧
    ¬ IsCommand 0x00000000 ∧ ¬ IsCommand 0x21010003 ∧ ¬ IsCommand 0x03000001 ∧ ¬ IsCommand 0xFFFFFFFF := by
  unfold IsCommand
  exact ⟨fun _ => rfl, by decide, by decide, by decide, by decide⟩

/-- The state whose host is about to assert `RST`, with one move more to come. -/
def resetting : State := { ring 5 with err := 3, errInfo := 9, pending := [.rst, .command 0x22000000] }

theorem test_witness_RstGivesTheResetState : resetting.pending = .rst :: [.command 0x22000000] := rfl

theorem test_witness_IdleEngineKeepsAllState : (ring 5).pending = [] := rfl

theorem test_witness_EveryCommandGetsOneResponse :
    (facing 0x58000000).pending = .command 0x58000000 :: [] ∧
    (facing 0x00000000).pending = .command 0x00000000 :: [] := ⟨rfl, rfl⟩

/-- The opcodes whose format is `Z` or `I`: a word with a nonzero `idx`. -/
theorem test_witness_IdxMustBeZero :
    [0x03, 0x04, 0x10, 0x11, 0x14, 0x15, 0x18, 0x20, 0x30, 0x32, 0x33, 0x40, 0x42, 0x43, 0x44, 0x50, 0x51,
      0x54].all (fun op : Byte =>
        (facing (wordOf op 1 0)).pending = [.command (wordOf op 1 0)] ∧
        (wordOf op 1 0).extractLsb' 24 8 = op ∧ (wordOf op 1 0).extractLsb' 16 8 ≠ 0) = true := by
  decide +kernel

/-- The opcodes whose format is `Z` or `X`: a word with a nonzero `imm`. -/
theorem test_witness_ImmMustBeZero :
    [0x01, 0x03, 0x04, 0x10, 0x12, 0x14, 0x16, 0x18, 0x19, 0x20, 0x23, 0x30, 0x31, 0x32, 0x40, 0x41, 0x42,
      0x44, 0x45, 0x50, 0x51, 0x53, 0x54].all (fun op : Byte =>
        (facing (wordOf op 0 1)).pending = [.command (wordOf op 0 1)] ∧
        (wordOf op 0 1).extractLsb' 24 8 = op ∧ (wordOf op 0 1).extractLsb' 0 16 ≠ 0) = true := by
  decide +kernel

theorem test_witness_CsrrReadsEveryRegister :
    [0x0E, 0x0F, 0x15, 0xFF].all (fun idx : Byte => idx = 0x0E ∨ idx = 0x0F ∨ 0x15 ≤ idx.toNat) = true := by
  decide

theorem test_witness_CsrwWritesNOrRounds :
    [1, 256].all (fun imm : Half => 1 ≤ imm.toNat ∧ imm.toNat ≤ 256) = true ∧
    [0, 257, 65535].all (fun imm : Half => imm.toNat = 0 ∨ 256 < imm.toNat) = true ∧
    [2, 255].all (fun idx : Byte => 2 ≤ idx.toNat) = true := by decide

theorem test_witness_ResetCommandIsRstWithAResponse :
    resetting.pending = .rst :: [.command 0x22000000] ∧ ∃ t, step resetting = .next t := ⟨rfl, _, rfl⟩

/-- Two cells in every buffer: the last present index and the first absent one. -/
def twoEach : State :=
  { ring 5 with seed := [1, 2], lens := [3, 4], digest := [5, 6], hex := [7, 8], bits := [true, false, true, true] }

theorem test_witness_BufferReadsAnswerPresentCellsOnly :
    (twoEach.seed[(1 : Byte).toNat]? = some 2 ∧ twoEach.seed.length ≤ (2 : Byte).toNat) ∧
    (twoEach.lens[(1 : Byte).toNat]? = some 4 ∧ twoEach.lens.length ≤ (2 : Byte).toNat) ∧
    (twoEach.digest[(1 : Byte).toNat]? = some 6 ∧ twoEach.digest.length ≤ (2 : Byte).toNat) ∧
    (twoEach.hex[(1 : Byte).toNat]? = some 8 ∧ twoEach.hex.length ≤ (2 : Byte).toNat) ∧
    (twoEach.bits[(3 : Byte).toNat]? = some true ∧ twoEach.bits.length ≤ (4 : Byte).toNat) := by decide

theorem test_witness_SgetReadsByLogicalPosition :
    Legal (ring 5) ∧ (ring 5).sparse.cells[(4 : Byte).toNat]? = some 4 ∧ (4 : Byte).toNat < (ring 5).n.toNat ∧
    (ring 5).n.toNat ≤ (5 : Byte).toNat := ⟨test_legal_ring5, by decide, by decide, by decide⟩

/-- A grid of two rows of width 4. -/
def twoRows : State := gridded [row4 0xA, row4 0x5]

theorem test_witness_GgetReadsAPresentCell :
    (twoRows.grid[(1 : Byte).toNat]? = some (row4 0x5) ∧ (row4 0x5)[(3 : Half).toNat]? = some true) ∧
    twoRows.grid.length ≤ (2 : Byte).toNat ∧
    (twoRows.grid[(1 : Byte).toNat]? = some (row4 0x5) ∧ (row4 0x5).length ≤ (4 : Half).toNat) := by decide

theorem test_witness_GwgetReadsTheRowWidth :
    twoRows.grid[(1 : Byte).toNat]? = some (row4 0x5) ∧ twoRows.grid.length ≤ (2 : Byte).toNat := by decide

theorem test_witness_SeedpushAppendsOneCharacter :
    ((255 : Half).toNat ≤ 255 ∧ (seeded (List.replicate 239 65)).seed.length < 240) ∧ 255 < (256 : Half).toNat ∧
    ((0 : Half).toNat ≤ 255 ∧ 240 ≤ (seeded (List.replicate 240 65)).seed.length) := by decide +kernel

theorem test_witness_LpushAppendsAnyValue :
    { ring 5 with lens := List.replicate 255 0 }.lens.length < 256 ∧
    256 ≤ { ring 5 with lens := List.replicate 256 0 }.lens.length := by decide +kernel

theorem test_witness_DpushAppendsOneByte :
    ((255 : Half).toNat ≤ 255 ∧ { ring 5 with digest := List.replicate 15 0 }.digest.length < 16) ∧
    255 < (256 : Half).toNat ∧
    ((0 : Half).toNat ≤ 255 ∧ 16 ≤ { ring 5 with digest := List.replicate 16 0 }.digest.length) := by decide +kernel

theorem test_witness_XpushAppendsOneCharacter :
    ((255 : Half).toNat ≤ 255 ∧ { ring 5 with hex := List.replicate 31 0 }.hex.length < 32) ∧
    255 < (256 : Half).toNat ∧
    ((0 : Half).toNat ≤ 255 ∧ 32 ≤ { ring 5 with hex := List.replicate 32 0 }.hex.length) := by decide +kernel

theorem test_witness_GpushAppendsTheBitRow :
    (gridded (List.replicate 127 [])).grid.length < 128 ∧
    128 ≤ (gridded (List.replicate 128 [])).grid.length := by decide +kernel

theorem test_witness_DeriveListsCodesThenSuffix : (seeded [102, 108]).seed[1]? = some 108 := rfl

/-- A legal state with the cursor at its last position and room for one length instruction more. -/
def nearlyFull : State :=
  { ring 5 with sparse := { freshSparse 5 with pos := 4, skip := 0xFFFFFFFE } }

theorem test_legal_nearlyFull : Legal nearlyFull := by
  apply legal_of_parts <;> decide

/-- The lengths 0 and `N`, with the least and the greatest skip size that has room. -/
theorem test_witness_MixDoesTheMixingStep :
    (Legal (ring 5) ∧ (0 : Half).toNat ≤ (ring 5).n.toNat ∧ (ring 5).sparse.skip.toNat < 2 ^ 32 - 1) ∧
    (Legal nearlyFull ∧ (5 : Half).toNat ≤ nearlyFull.n.toNat ∧ nearlyFull.sparse.skip.toNat < 2 ^ 32 - 1) :=
  ⟨⟨test_legal_ring5, by decide, by decide⟩, test_legal_nearlyFull, by decide, by decide⟩

theorem test_witness_LengthInstructionDoesTheMixingStep :
    (Legal (ring 5) ∧ (0 : Half).toNat ≤ (ring 5).n.toNat ∧ (ring 5).sparse.skip.toNat < 2 ^ 32 - 1) ∧
    (Legal nearlyFull ∧ (5 : Half).toNat ≤ nearlyFull.n.toNat ∧ nearlyFull.sparse.skip.toNat < 2 ^ 32 - 1) :=
  test_witness_MixDoesTheMixingStep

/-- The state whose skip size is at its largest value. -/
def full : State := { ring 5 with sparse := { freshSparse 5 with skip := 0xFFFFFFFF } }

theorem test_witness_LengthIsCheckedBeforeTheSkipSize :
    full.n.toNat < (6 : Half).toNat ∧
    ((5 : Half).toNat ≤ full.n.toNat ∧ full.sparse.skip.toNat = 2 ^ 32 - 1) := by decide

theorem test_witness_MixingStepIsReversible :
    Legal nearlyFull ∧ (5 : Half).toNat ≤ nearlyFull.n.toNat ∧ nearlyFull.sparse.skip.toNat < 2 ^ 32 - 1 ∧
    ∃ t, exec (.mix 5) nearlyFull = .next t := ⟨test_legal_nearlyFull, by decide, by decide, _, rfl⟩

/-- `N` = 5 and this Length List and round count. -/
def listed (lens : List Half) (rounds : Half) : State := { ring 5 with lens := lens, rounds := rounds }

theorem test_legal_listed : Legal (listed [3, 4, 1, 5] 64) ∧ Legal (listed [6] 0) ∧ Legal (listed [3, 6, 7] 1) := by
  refine ⟨?_, ?_, ?_⟩ <;> apply legal_of_parts <;> decide

theorem test_witness_RunRefusesTheFirstOverlongEntry :
    Legal (listed [3, 6, 7] 1) ∧ 1 ≤ (listed [3, 6, 7] 1).rounds.toNat ∧
    (listed [3, 6, 7] 1).lens[1]? = some 6 ∧ (listed [3, 6, 7] 1).n.toNat < (6 : Half).toNat ∧
    ∀ j < 1, ∀ u, (listed [3, 6, 7] 1).lens[j]? = some u → u.toNat ≤ (listed [3, 6, 7] 1).n.toNat := by
  refine ⟨test_legal_listed.2.2, by decide, rfl, by decide, fun j hj u hu => ?_⟩
  obtain rfl : j = 0 := by omega
  obtain rfl : (3 : Half) = u := Option.some.inj hu
  decide

/-- Both ways to succeed: every entry in range, or no round at all. -/
theorem test_witness_RunIsInitThenEachLength :
    (Legal (listed [3, 4, 1, 5] 64) ∧ ∀ v ∈ (listed [3, 4, 1, 5] 64).lens, v.toNat ≤ (listed [3, 4, 1, 5] 64).n.toNat) ∧
    (Legal (listed [6] 0) ∧ (listed [6] 0).rounds = 0) :=
  ⟨⟨test_legal_listed.1, by simp [listed, ring]⟩, test_legal_listed.2.1, rfl⟩

theorem test_witness_RunEndsAtTheSummedCursor :
    (Legal (listed [3, 4, 1, 5] 64) ∧ ∀ v ∈ (listed [3, 4, 1, 5] 64).lens, v.toNat ≤ (listed [3, 4, 1, 5] 64).n.toNat) ∧
    (Legal (listed [6] 0) ∧ (listed [6] 0).rounds = 0) := test_witness_RunIsInitThenEachLength

theorem test_witness_RunWithoutLengthsOnlyInitialises :
    (listed [6] 0).rounds = 0 ∧ (listed [] 65535).lens = [] := ⟨rfl, rfl⟩

theorem test_witness_RunAgreesWithTheRotatingMachine :
    (Legal (listed [3, 4, 1, 5] 64) ∧ (∀ v ∈ (listed [3, 4, 1, 5] 64).lens, v.toNat ≤ (listed [3, 4, 1, 5] 64).n.toNat) ∧
      ∃ t, exec .run (listed [3, 4, 1, 5] 64) = .next t) ∧
    (Legal (listed [6] 0) ∧ (listed [6] 0).rounds = 0 ∧ ∃ t, exec .run (listed [6] 0) = .next t) :=
  ⟨⟨test_legal_listed.1, by simp [listed, ring], _, rfl⟩, test_legal_listed.2.1, rfl, _, rfl⟩

theorem test_legal_ring16 : Legal (ring 16) := by
  apply legal_of_parts <;> decide

theorem test_witness_DenseFoldsEachBlock :
    (Legal (ring 16) ∧ (ring 16).n.toNat % 16 = 0 ∧ 0 < (ring 16).n.toNat / 16) ∧
    (Legal (ring 5) ∧ (ring 5).n.toNat % 16 ≠ 0) :=
  ⟨⟨test_legal_ring16, by decide, by decide⟩, test_legal_ring5, by decide⟩

theorem test_witness_IdentityFoldsToZero : Legal (ring 16) ∧ (ring 16).n.toNat % 16 = 0 :=
  ⟨test_legal_ring16, by decide⟩

theorem test_witness_HexencRendersBothNibbles : { ring 5 with digest := [0x0F, 0xA5] }.digest[1]? = some 0xA5 := rfl

/-- All digits; a bad character in the first, and in the last, of 32 places. -/
theorem test_witness_HexdecExpandsEachDigit :
    ((∀ v ∈ [0, 9, 10, 15], v < 16) ∧
      { ring 5 with hex := [0x30, 0x39, 0x61, 0x66] }.hex = [0, 9, 10, 15].map hexCode ∧
      [0, 9, 10, 15][3]? = some 15) ∧
    ({ ring 5 with hex := [0x41] }.hex.length ≤ 32 ∧ { ring 5 with hex := [0x41] }.hex[0]? = some 0x41 ∧
      ∀ v < 16, (0x41 : Byte) ≠ hexCode v) ∧
    ({ ring 5 with hex := List.replicate 31 0x61 ++ [0x67] }.hex.length ≤ 32 ∧
      { ring 5 with hex := List.replicate 31 0x61 ++ [0x67] }.hex[31]? = some 0x67 ∧
      (∀ v < 16, (0x67 : Byte) ≠ hexCode v) ∧
      ∀ j < 31, ∃ v < 16, { ring 5 with hex := List.replicate 31 0x61 ++ [0x67] }.hex[j]? = some (hexCode v)) := by
  refine ⟨by decide, by decide, by decide, by decide, by decide, fun j hj => ⟨10, by decide, ?_⟩⟩
  rw [List.getElem?_append_left (by simpa using hj), List.getElem?_replicate, if_pos hj]
  decide

theorem test_witness_HexRoundTripIsTheBitExpansion :
    { ring 5 with digest := [0x0F, 0xA5] }.digest[1]? = some 0xA5 := rfl

theorem test_legal_twoRows : Legal twoRows := by
  apply legal_of_parts <;> decide

theorem test_witness_CountAnswersTheSetCells : Legal twoRows := test_legal_twoRows

theorem test_witness_RegionCountsTheRegions :
    (∀ row ∈ twoRows.grid, ∀ row' ∈ twoRows.grid, row.length = row'.length) ∧
    (∀ row ∈ (gridded []).grid, ∀ row' ∈ (gridded []).grid, row.length = row'.length) := by decide

/-- The first ragged row is the second, and the third. -/
theorem test_witness_RegionRefusesTheFirstRaggedRow :
    ((gridded [[], row4 0xF]).grid[0]? = some [] ∧ (gridded [[], row4 0xF]).grid[1]? = some (row4 0xF) ∧
      (row4 0xF).length ≠ ([] : List Bool).length) ∧
    ((gridded [row4 0xA, row4 0x5, []]).grid[0]? = some (row4 0xA) ∧
      (gridded [row4 0xA, row4 0x5, []]).grid[2]? = some [] ∧ ([] : List Bool).length ≠ (row4 0xA).length ∧
      ∀ j < 2, ∀ row', (gridded [row4 0xA, row4 0x5, []]).grid[j]? = some row' →
        row'.length = (row4 0xA).length) := by
  refine ⟨by decide, rfl, rfl, by decide, fun j hj row' h => ?_⟩
  rcases (by omega : j = 0 ∨ j = 1) with rfl | rfl <;> · cases h; rfl

theorem test_witness_RegionsAreAtMostHalfTheCells :
    Legal twoRows ∧ ∀ row ∈ twoRows.grid, ∀ row' ∈ twoRows.grid, row.length = row'.length :=
  ⟨test_legal_twoRows, by decide⟩

theorem test_witness_HashWritesThePipelineOnly : Legal (ring 5) := test_legal_ring5

/-- The inner commands for a row run to their end on every state whose row string the check phase of RUN
passes. -/
theorem row_next (u : State) (idx : Byte)
    (h : firstOverlong 256 (lengthsOf (rowString u.seed idx.toNat)) = none) :
    ∃ v, execAll [.csrw 0x00 256, .csrw 0x01 64, .deriver idx, .run, .dense, .hexenc, .hexdec] u = .next v := by
  have hrun := execRun_of_passed
    (s := answered 0 (deriveRow idx.toNat (answered 0 (writeRounds 64 (answered 0 (writeN 256 u)))))) h
  have hdense := execDense_of_multiple
    (s := answered 0 (runList (answered 0 (deriveRow idx.toNat
      (answered 0 (writeRounds 64 (answered 0 (writeN 256 u)))))))) (by simp)
  rw [execAll_cons (t := answered 0 (writeN 256 u)) rfl, execAll_cons (t := answered 0 (writeRounds 64 _)) rfl,
    execAll_cons (t := answered 0 (deriveRow idx.toNat _)) rfl, execAll_cons (i := .run) hrun,
    execAll_cons (i := .dense) hdense, execAll_cons (t := answered 0 (encodeHex _)) rfl,
    execAll_cons (i := .hexdec) (execHexdec_of_passed (firstNonHex_flatMap_hexPair _))]
  exact ⟨_, rfl⟩

/-- The last row, from two states that share the seed alone. -/
theorem test_witness_GridRowsAreIndependent :
    ∃ s u t v : State, s.seed = u.seed ∧ s.n ≠ u.n ∧ exec .rowgen s = .next t ∧
      execAll [.csrw 0x00 256, .csrw 0x01 64, .deriver (BitVec.ofNat 8 127), .run, .dense, .hexenc, .hexdec] u
        = .next v := by
  obtain ⟨v, hv⟩ := row_next { wrapState with seed := [102] } (BitVec.ofNat 8 127) (by decide +kernel)
  exact ⟨seeded [102], { wrapState with seed := [102] }, _, v, rfl, by decide, rfl, hv⟩

/-- The same failure, captured and not captured. -/
theorem test_witness_FailureChangesOnlyTheCapture :
    (∃ t, step (facing 0x23050000) = .next t ∧ t.rsp = some ⟨0x11, 0x23050000⟩) ∧
    ∃ t, step { facing 0x23050000 with err := 0x10, errInfo := 7 } = .next t ∧
      t.rsp = some ⟨0x11, 0x23050000⟩ := ⟨⟨_, rfl, rfl⟩, _, rfl, rfl⟩

theorem test_witness_SuccessKeepsTheCapture :
    ∃ t, step { facing 0x20000000 with err := 0x10, errInfo := 7 } = .next t ∧ t.rsp = some ⟨0x00, 0⟩ :=
  ⟨_, rfl, rfl⟩

/-- A run of two commands that both succeed, and one whose second fails. -/
theorem test_witness_ErrStaysZeroIffNoCommandFailed :
    (ring 5).err = 0 ∧ [[0x20000000, 0x23040000], [0x20000000, 0x23050000]].all (fun ws : List Word =>
      ws.all fun w => w ≠ 0x03000000 ∧ w ≠ 0x04000000) = true ∧
    (∃ t, Sys2Proof.core.run 2 { ring 5 with pending := [0x20000000, 0x23040000].map .command } = .next t ∧
      t.err = 0) ∧
    ∃ t, Sys2Proof.core.run 2 { ring 5 with pending := [0x20000000, 0x23050000].map .command } = .next t ∧
      t.err = 0x11 := ⟨rfl, by decide, ⟨_, rfl, rfl⟩, _, rfl, rfl⟩

/-- Each kind of state is changed by some instruction. -/
theorem test_witness_OnlyTheListedInstructionsWrite :
    (after (exec (.csrw 0 7) (ring 5))).map (·.n) ≠ some (ring 5).n ∧
    (after (exec (.csrw 1 7) (ring 5))).map (·.rounds) ≠ some (ring 5).rounds ∧
    (after (exec (.mix 3) (ring 5))).map (·.sparse) ≠ some (ring 5).sparse ∧
    (after (exec (.seedpush 7) (ring 5))).map (·.seed) ≠ some (ring 5).seed ∧
    (after (exec (.lpush 7) (ring 5))).map (·.lens) ≠ some (ring 5).lens ∧
    (after (exec (.dpush 7) (ring 5))).map (·.digest) ≠ some (ring 5).digest ∧
    (after (exec (.xpush 7) (ring 5))).map (·.hex) ≠ some (ring 5).hex ∧
    (after (exec .hexdec { ring 5 with hex := [0x61] })).map (·.bits) ≠ some (ring 5).bits ∧
    (after (exec .gpush (ring 5))).map (·.grid) ≠ some (ring 5).grid ∧
    (after (exec .count twoRows)).map (·.ucnt) ≠ some twoRows.ucnt ∧
    (after (exec .region twoRows)).map (·.rcnt) ≠ some twoRows.rcnt := by decide

theorem test_witness_IllFormedAlwaysFails :
    Legal (ring 5) ∧ WellFormed (.mix 257) = false ∧ WellFormed (.csrr 0x0E) = false ∧
    WellFormed (.gget 0 128) = false := ⟨test_legal_ring5, by decide, by decide, by decide⟩

/-- A command and an assertion of `RST` from a legal state. -/
theorem test_witness_StepKeepsTheStateLegal :
    (Legal (facing 0x21000003) ∧ ∃ t, step (facing 0x21000003) = .next t) ∧
    Legal resetting ∧ ∃ t, step resetting = .next t := by
  refine ⟨⟨?_, _, rfl⟩, ?_, _, rfl⟩ <;> apply legal_of_parts <;> decide

theorem test_witness_StepKeepsTheRegionCountInRange :
    Legal { facing 0x60000000 with rcnt := 8192 } ∧ RegionCountInRange { facing 0x60000000 with rcnt := 8192 } ∧
    ∃ t, step { facing 0x60000000 with rcnt := 8192 } = .next t := by
  refine ⟨?_, by unfold RegionCountInRange; decide, _, rfl⟩
  apply legal_of_parts <;> decide

end Sys2Proof.Tests
end

section
/-! PROOF. The reset state of 10_state.md R47, and the read of a register by CSRR (46_system.md R200). -/

namespace Sys2Proof.Machine

/-- Every cell of a fresh sparse state holds its own position (R100). -/
theorem freshSparse_getElem? {n j : Nat} (hj : j < n) :
    (freshSparse n).cells[j]? = some (BitVec.ofNat 8 j) := by
  rw [freshSparse, List.getElem?_map, List.getElem?_range hj, Option.map_some]

/-- The sparse state of the reset state is the fresh one of length `NMAX` (R47, R100). -/
@[simp] theorem reset_sparse : State.reset.sparse = freshSparse 256 := rfl

/-- What CSRR does (R200). -/
theorem exec_csrr (idx : Byte) (s : State) :
    exec (.csrr idx) s = respondCell (commandWord (.csrr idx)) ((csrOfNumber idx).map (csrValue s)) s := rfl

/-- CSRR of a defined number answers the register's value and changes nothing (R200). -/
theorem answers_csrr {idx : Byte} {c : Csr} (h : csrOfNumber idx = some c) (s : State) :
    Answers (.csrr idx) s (csrValue s c) s := by
  rw [Answers, exec_csrr, h, Option.map_some, respondCell_some]
  rfl

end Sys2Proof.Machine

namespace Sys2Proof.Proofs

open Sys2Proof Sys2Proof.Machine

/-- Settles O8: the sparse state is the fresh one, each other field is as R47 gives it, and each suffix
constant is a defined register. -/
theorem resetStateHoldsTheListedValues : Obligations.ResetStateHoldsTheListedValues := by
  have hlen : State.reset.sparse.cells.length = 256 := by rw [reset_sparse, length_freshSparse]
  have hcells : ∀ j < 256, State.reset.sparse.cells[j]? = some (BitVec.ofNat 8 j) :=
    fun _ hj => freshSparse_getElem? hj
  exact ⟨rfl, rfl, hlen, hcells, rfl, rfl, rfl, rfl, rfl, rfl, rfl, rfl, rfl, rfl, rfl, rfl,
    answers_csrr (c := .sfx0) rfl _, answers_csrr (c := .sfx1) rfl _, answers_csrr (c := .sfx2) rfl _,
    answers_csrr (c := .sfx3) rfl _, answers_csrr (c := .sfx4) rfl _⟩

end Sys2Proof.Proofs
end

section
/-! PROOF. The opcode map of 30_encoding.md R84 row by row: which words select a row's command (R82, R85),
and what becomes of a word that selects none (R86). -/

namespace Sys2Proof

/-! ### The formats -/

/-- The mask of a format: ones in `op` and in each field that must be zero (R82). -/
def Format.mask : Format → Word
  | .z _ => assemble (BitVec.allOnes 8) (BitVec.allOnes 8) (BitVec.allOnes 16)
  | .i _ => assemble (BitVec.allOnes 8) (BitVec.allOnes 8) 0
  | .x _ => assemble (BitVec.allOnes 8) 0 (BitVec.allOnes 16)
  | .xi _ => assemble (BitVec.allOnes 8) 0 0

/-- The fields that a format does not use are zero (R82). -/
def Format.Accepts : Format → Byte → Half → Prop
  | .z _, idx, imm => idx = 0 ∧ imm = 0
  | .i _, idx, _ => idx = 0
  | .x _, _, imm => imm = 0
  | .xi _, _, _ => True

/-- The instruction that a format makes from the fields it uses. -/
def Format.make : Format → Byte → Half → Instr
  | .z c, _, _ => c
  | .i c, _, imm => c imm
  | .x c, idx, _ => c idx
  | .xi c, idx, imm => c idx imm

/-- A format reads its fields exactly when those it does not use are zero. -/
theorem Format.read_eq_ok {f : Format} {idx : Byte} {imm : Half} {i : Instr} :
    f.read idx imm = .ok i ↔ f.Accepts idx imm ∧ f.make idx imm = i := by
  cases f with
  | z c =>
    rw [read]
    split
    · simp_all [Accepts]
    · split <;> simp_all [Accepts, make]
  | i c =>
    rw [read]
    split <;> simp_all [Accepts, make]
  | x c =>
    rw [read]
    split <;> simp_all [Accepts, make]
  | xi c => simp [read, Accepts, make]

/-! ### Masked words -/

/-- An assembled word determines its fields (R81). -/
theorem assemble_inj {op op' idx idx' : Byte} {imm imm' : Half} :
    assemble op idx imm = assemble op' idx' imm' ↔ op = op' ∧ idx = idx' ∧ imm = imm' := by
  constructor
  · intro h
    exact ⟨by simpa using congrArg fieldOp h, by simpa using congrArg fieldIdx h,
      by simpa using congrArg fieldImm h⟩
  · rintro ⟨rfl, rfl, rfl⟩
    rfl

/-- A word under a mask is compared field by field. -/
theorem and_assemble_eq_iff {w : Word} {a b op idx : Byte} {c imm : Half} :
    w &&& assemble a b c = assemble op idx imm ↔
      fieldOp w &&& a = op ∧ fieldIdx w &&& b = idx ∧ fieldImm w &&& c = imm := by
  rw [← assemble_inj, ← Laws.assemble_and, assemble_fields]

/-- `(w and mask) = match` says that the word has the row's opcode and zeros where the format asks for
them (R82). -/
theorem Format.and_mask_eq_iff {f : Format} {w : Word} {op : Byte} :
    w &&& f.mask = assemble op 0 0 ↔ fieldOp w = op ∧ f.Accepts (fieldIdx w) (fieldImm w) := by
  cases f <;>
    simp only [mask, Accepts, BitVec.ofNat_eq_ofNat, and_assemble_eq_iff, BitVec.and_allOnes, BitVec.and_zero,
      true_and, and_true]

/-! ### The rows -/

/-- The opcode of a row is the opcode of every instruction of the row. -/
theorem fieldOp_commandWord_make {op : Byte} {f : Format} (h : (op, f) ∈ opcodeMap) (idx : Byte) (imm : Half) :
    fieldOp (commandWord (f.make idx imm)) = op := by
  have hrows : ∀ row ∈ opcodeMap, fieldOp (commandWord (row.2.make idx imm)) = row.1 := by
    simp [opcodeMap, Format.make, commandWord, encode]
  exact hrows (op, f) h

/-- A row that the decoder finds is a row of the map. -/
theorem mem_opcodeMap_of_lookup {op : Byte} {f : Format} (h : opcodeMap.lookup op = some f) :
    (op, f) ∈ opcodeMap := by
  obtain ⟨l₁, l₂, hmap, -⟩ := List.lookup_eq_some_iff.1 h
  rw [hmap]
  exact List.mem_append_right _ List.mem_cons_self

/-- What a command word decodes to: the row of its opcode, where the row's mask and match hold (R85). -/
theorem decode_command_eq_ok {w : Word} {i : Instr} :
    decode (.command w) = .ok i ↔
      ∃ f, opcodeMap.lookup (fieldOp w) = some f ∧ w &&& f.mask = assemble (fieldOp w) 0 0 ∧
        f.make (fieldIdx w) (fieldImm w) = i := by
  rw [decode, decodeCommand]
  cases hrow : opcodeMap.lookup (fieldOp w) with
  | none => simp
  | some f =>
    simp only [Format.read_eq_ok, Format.and_mask_eq_iff, Option.some.injEq, exists_eq_left', true_and]

/-- A word decodes to an instruction of a row exactly when `(w and mask) = match` for that row (R82). The
opcode of the decoded instruction tells the row. -/
theorem decode_row_iff {op : Byte} {f : Format} (hrow : opcodeMap.lookup op = some f) (w : Word) :
    (∃ idx imm, decode (.command w) = .ok (f.make idx imm)) ↔ w &&& f.mask = assemble op 0 0 := by
  constructor
  · rintro ⟨idx, imm, hdec⟩
    obtain ⟨f', hrow', hmask, hmake⟩ := decode_command_eq_ok.1 hdec
    have hop : fieldOp w = op := by
      rw [← fieldOp_commandWord_make (mem_opcodeMap_of_lookup hrow') (fieldIdx w) (fieldImm w), hmake,
        fieldOp_commandWord_make (mem_opcodeMap_of_lookup hrow)]
    rw [hop] at hrow' hmask
    obtain rfl : f = f' := Option.some.inj (hrow.symm.trans hrow')
    exact hmask
  · intro hmask
    obtain ⟨rfl, -⟩ := Format.and_mask_eq_iff.1 hmask
    exact ⟨_, _, decode_command_eq_ok.2 ⟨f, hrow, hmask, rfl⟩⟩

/-- A row of format `Z`. -/
theorem decode_z_iff {op : Byte} {c : Instr} (h : opcodeMap.lookup op = some (.z c)) (w : Word) :
    decode (.command w) = .ok c ↔ w &&& 0xFFFFFFFF = assemble op 0 0 :=
  Iff.trans (by simp [Format.make]) (decode_row_iff h w)

/-- A row of format `I`. -/
theorem decode_i_iff {op : Byte} {c : Half → Instr} (h : opcodeMap.lookup op = some (.i c)) (w : Word) :
    (∃ imm, decode (.command w) = .ok (c imm)) ↔ w &&& 0xFFFF0000 = assemble op 0 0 :=
  Iff.trans (by simp [Format.make]) (decode_row_iff h w)

/-- A row of format `X`. -/
theorem decode_x_iff {op : Byte} {c : Byte → Instr} (h : opcodeMap.lookup op = some (.x c)) (w : Word) :
    (∃ idx, decode (.command w) = .ok (c idx)) ↔ w &&& 0xFF00FFFF = assemble op 0 0 :=
  Iff.trans (by simp [Format.make]) (decode_row_iff h w)

/-- A row of format `XI`. -/
theorem decode_xi_iff {op : Byte} {c : Byte → Half → Instr} (h : opcodeMap.lookup op = some (.xi c))
    (w : Word) :
    (∃ idx imm, decode (.command w) = .ok (c idx imm)) ↔ w &&& 0xFF000000 = assemble op 0 0 :=
  decode_row_iff h w

end Sys2Proof

namespace Sys2Proof.Machine

/-- A word that selects no command fails with `IllegalCommandError` (R86). -/
theorem step_of_decode_error {s : State} {w : Word} {rest : List HostMove} {e : DecodeError}
    (hp : s.pending = .command w :: rest) (hd : decode (.command w) = .error e) :
    step s = .next (failed .illegalCommand w { s with pending := rest }) := by
  have htake : takeMove s = some (.command w, { s with pending := rest }) :=
    takeMove_eq_some.2 ⟨rest, hp, rfl⟩
  simp only [step, htake, hd]
  rfl

end Sys2Proof.Machine

namespace Sys2Proof.Proofs

open Sys2Proof Sys2Proof.Machine Sys2Proof.Certificates

/-- The `match` and `mask` columns of the statements are those of the opcode map. -/
theorem commandRows_eq : commandRows = opcodeMap.map fun row => (assemble row.1 0 0, row.2.mask) := rfl

/-- A word that decodes matches the row of its opcode. -/
theorem isCommand_of_decode {w : Word} {i : Instr} (h : decode (.command w) = .ok i) : IsCommand w := by
  obtain ⟨f, hrow, hmask, -⟩ := decode_command_eq_ok.1 h
  have hmem : (assemble (fieldOp w) 0 0, f.mask) ∈ commandRows := by
    rw [commandRows_eq, List.mem_map]
    exact ⟨(fieldOp w, f), mem_opcodeMap_of_lookup hrow, rfl⟩
  exact ⟨_, hmem, hmask⟩

/-- Settles O3: each row by the lemma for its format. -/
theorem decodeFollowsMatchAndMask : Obligations.DecodeFollowsMatchAndMask := fun w =>
  ⟨decode_x_iff (op := 0x01) rfl w, decode_xi_iff (op := 0x02) rfl w, decode_z_iff (op := 0x03) rfl w,
    decode_z_iff (op := 0x04) rfl w,
    decode_z_iff (op := 0x10) rfl w, decode_i_iff (op := 0x11) rfl w, decode_x_iff (op := 0x12) rfl w,
    decode_z_iff (op := 0x14) rfl w, decode_i_iff (op := 0x15) rfl w, decode_x_iff (op := 0x16) rfl w,
    decode_z_iff (op := 0x18) rfl w, decode_x_iff (op := 0x19) rfl w,
    decode_z_iff (op := 0x20) rfl w, decode_i_iff (op := 0x21) rfl w, decode_z_iff (op := 0x22) rfl w,
    decode_x_iff (op := 0x23) rfl w,
    decode_z_iff (op := 0x30) rfl w, decode_x_iff (op := 0x31) rfl w, decode_z_iff (op := 0x32) rfl w,
    decode_i_iff (op := 0x33) rfl w,
    decode_z_iff (op := 0x40) rfl w, decode_x_iff (op := 0x41) rfl w, decode_z_iff (op := 0x42) rfl w,
    decode_i_iff (op := 0x43) rfl w, decode_z_iff (op := 0x44) rfl w, decode_x_iff (op := 0x45) rfl w,
    decode_z_iff (op := 0x50) rfl w, decode_z_iff (op := 0x51) rfl w, decode_xi_iff (op := 0x52) rfl w,
    decode_x_iff (op := 0x53) rfl w, decode_z_iff (op := 0x54) rfl w,
    decode_z_iff (op := 0x58) rfl w, decode_z_iff (op := 0x59) rfl w,
    decode_z_iff (op := 0x60) rfl w⟩

/-- Settles O6: a word that decoded would match a row, so this one fails in the decoder. -/
theorem illegalWordFailsAlone : Obligations.IllegalWordFailsAlone := by
  intro s w rest hp hw
  cases hd : decode (.command w) with
  | ok i => exact absurd (isCommand_of_decode hd) hw
  | error e => exact step_of_decode_error hp hd

end Sys2Proof.Proofs
end

section
/-! PROOF. The sparse mixer (40_sparse_mixer.md): the mixing step of R101 cell by cell, how it is undone
(R105), and the read by logical position (R106). -/

namespace Sys2Proof.Machine

/-! ### The mixing step -/

/-- A legal sparse state of length `n` has `n` cells (R24). -/
theorem SparseLegal.length_cells {n : Nat} {p : Sparse} (h : SparseLegal n p) : p.cells.length = n := by
  simpa using h.perm.length_eq

/-- The cursor after a mixing step: a remainder by `n` fits its 8 bits (R22, R101). -/
theorem toNat_pos_mixStep {n : Nat} {p : Sparse} (h : SparseLegal n p) (len : Half) :
    (mixStep n p len).pos.toNat = (p.pos.toNat + len.toNat + p.skip.toNat) % n := by
  have hlt := Nat.mod_lt (p.pos.toNat + len.toNat + p.skip.toNat) h.length_pos
  have hle := h.length_le
  rw [mixStep, BitVec.toNat_ofNat, Nat.mod_eq_of_lt (by omega)]

/-- The skip size after a mixing step that has room for it (R101). -/
theorem toNat_skip_mixStep {p : Sparse} (hskip : p.skip.toNat < 2 ^ 32 - 1) (n : Nat) (len : Half) :
    (mixStep n p len).skip.toNat = p.skip.toNat + 1 :=
  BitVec.toNat_add_of_lt (by simp; omega)

/-- On a legal sparse state and within its preconditions, `mixStep` is the mixing step of R101. -/
theorem isMixStep_mixStep {n : Nat} {p : Sparse} {len : Half} (h : SparseLegal n p) (hlen : len.toNat ≤ n)
    (hskip : p.skip.toNat < 2 ^ 32 - 1) : IsMixStep n len p (mixStep n p len) := by
  have hcells := h.length_cells
  have hcell : ∀ i < n, (mixStep n p len).cells[(p.pos.toNat + i) % n]? =
      if i < len.toNat then p.cells[(p.pos.toNat + len.toNat - 1 - i) % n]?
      else p.cells[(p.pos.toNat + i) % n]? := by
    have hpos := h.pos_lt
    rw [← hcells] at hpos hlen ⊢
    exact fun i hi => getElem?_reverseFrom hpos hlen hi
  refine ⟨by rw [length_mixStep, hcells], fun i hi => ?_, fun i hi hn => ?_, toNat_pos_mixStep h len,
    toNat_skip_mixStep hskip n len⟩
  · rw [hcell i (by omega), if_pos hi]
  · rw [hcell i hn, if_neg (by omega)]

/-- MIX answers with the mixed sparse state where the checks pass (R102). -/
theorem answers_mix {s : State} {len : Half} {p : Sparse} (h : tryMix s.n.toNat s.sparse len = .ok p) :
    Answers (.mix len) s 0 { s with sparse := p } := by
  simp only [Answers, exec, execMix, h]
  rfl

/-! ### Undoing a mixing step -/

/-- Stepping a cursor below `n` forward by `d` and then back by `d`, around the end, leaves it in place. -/
theorem back_of_forward_mod {n pos : Nat} (hpos : pos < n) (d : Nat) :
    ((pos + d) % n + n - d % n) % n = pos := by
  have hd := Nat.mod_lt d (by omega : 0 < n)
  have hdiv := Nat.div_add_mod d n
  have hturns : pos + d + (n - d % n) = pos + n * (d / n + 1) := by
    rw [Nat.mul_succ]
    omega
  rw [Nat.add_sub_assoc hd.le, Nat.mod_add_mod, hturns, Nat.add_mul_mod_self_left, Nat.mod_eq_of_lt hpos]

/-- The cursor before a mixing step, from the cursor after it, the length and the old skip size (R105). -/
theorem IsMixStep.pos_before {n : Nat} {len : Half} {p q : Sparse} (h : IsMixStep n len p q)
    (hpos : p.pos.toNat < n) :
    (q.pos.toNat + n - (len.toNat + p.skip.toNat) % n) % n = p.pos.toNat := by
  rw [h.pos_eq, Nat.add_assoc p.pos.toNat]
  exact back_of_forward_mod hpos _

/-- The reversal of the mixing step is its own inverse (R105). -/
theorem IsMixStep.reversed_back {n : Nat} {len : Half} {p q : Sparse} (h : IsMixStep n len p q) {i : Nat}
    (hi : i < len.toNat) :
    p.cells[(p.pos.toNat + i) % n]? = q.cells[(p.pos.toNat + len.toNat - 1 - i) % n]? := by
  have hmirror := h.reversed (len.toNat - 1 - i) (by omega)
  rw [show p.pos.toNat + len.toNat - 1 - (len.toNat - 1 - i) = p.pos.toNat + i by omega,
    show p.pos.toNat + (len.toNat - 1 - i) = p.pos.toNat + len.toNat - 1 - i by omega] at hmirror
  exact hmirror.symm

/-! ### Reading a sparse cell -/

/-- In a legal state SGET reads the cells themselves: there are exactly `N` of them (R24, R106). -/
theorem exec_sget_of_legal {s : State} (h : SparseLegal s.n.toNat s.sparse) (idx : Byte) :
    exec (.sget idx) s =
      respondCell (commandWord (.sget idx)) (s.sparse.cells[idx.toNat]?.map (·.setWidth 32)) s := by
  have hall : s.sparse.cells.take s.n.toNat = s.sparse.cells := List.take_of_length_le h.length_cells.le
  rw [exec, execSget, hall, readCell]

end Sys2Proof.Machine

namespace Sys2Proof.Proofs

open Sys2Proof Sys2Proof.Machine Sys2Proof.Certificates

/-- An opcode whose format makes `imm` zero has no command with a nonzero `imm` (R82, R85, R86). -/
theorem immMustBeZero_of_row {op : Byte} {f : Format} (hrow : opcodeMap.lookup op = some f)
    (hf : ∀ idx imm, f.Accepts idx imm → imm = 0) : ImmMustBeZero op := by
  rintro s w rest hp rfl himm
  cases hd : decode (.command w) with
  | ok i =>
    obtain ⟨f', hrow', hmask, -⟩ := decode_command_eq_ok.1 hd
    obtain rfl : f = f' := Option.some.inj (hrow.symm.trans hrow')
    exact absurd (hf _ _ (Format.and_mask_eq_iff.1 hmask).2) himm
  | error e => exact step_of_decode_error hp hd

/-- Settles O29: the checks of R102 pass, and `mixStep` is the step of R101. -/
theorem mixDoesTheMixingStep : Obligations.MixDoesTheMixingStep := by
  intro s len hs hlen hskip
  have hroom : s.sparse.skip.toNat ≠ Config.skipMax := hskip.ne
  exact ⟨_, answers_mix (tryMix_eq_ok.2 ⟨hlen, hroom, rfl⟩), isMixStep_mixStep hs.sparse hlen hskip⟩

/-- Settles O32: the skip size went up by one, the cursor went forward by the length and the old skip size,
and the reversal is its own inverse. -/
theorem mixingStepIsReversible : Obligations.MixingStepIsReversible := by
  intro s t len hs hlen hskip ht n skip pos
  obtain ⟨p, hanswers, hstep⟩ := mixDoesTheMixingStep s len hs hlen hskip
  obtain rfl : _ = t := Host.Outcome.next.inj (hanswers.symm.trans ht)
  have hskip' : s.sparse.skip.toNat = skip := (Nat.sub_eq_of_eq_add hstep.skip_eq).symm
  have hpos' : s.sparse.pos.toNat = pos := by
    rw [← hstep.pos_before hs.sparse.pos_lt, hskip']
  refine ⟨hskip', hpos', ?_⟩
  rw [← hpos']
  exact ⟨fun i hi => hstep.reversed_back hi, fun i hi hn => (hstep.kept i hi hn).symm⟩

/-- Settles O17: a legal state holds exactly `N` cells, so a position below `N` is present and any other is
absent. -/
theorem sgetReadsByLogicalPosition : Obligations.SgetReadsByLogicalPosition := by
  refine ⟨immMustBeZero_of_row (f := .x .sget) rfl fun _ _ h => h, fun s idx hs => ?_⟩
  have hcells := hs.sparse.length_cells
  have hexec := exec_sget_of_legal hs.sparse idx
  have hpresent : idx.toNat < s.n.toNat → ∃ v, s.sparse.cells[idx.toNat]? = some v :=
    fun hlt => ⟨_, List.getElem?_eq_getElem (hcells ▸ hlt)⟩
  refine ⟨fun v hv => ?present, hpresent, fun hge => ?absent⟩
  case present =>
    rw [hv, Option.map_some, respondCell_some] at hexec
    exact hexec
  case absent =>
    rw [List.getElem?_eq_none (hcells.le.trans hge), Option.map_none, respondCell_none] at hexec
    exact hexec

end Sys2Proof.Proofs
end

section
/-! PROOF. The seed buffer, the Length List and its derivation (41_round_runner.md R120 to R127), with the
single-cell reads and the clears that the other buffers share with them. -/

namespace Sys2Proof.Machine

/-! ### Outcomes -/

/-- A command that responds answers. -/
theorem answers_of_respond {i : Instr} {s t : State} {data : Word} (h : exec i s = respond data t) :
    Answers i s data t := h

/-- A command that raises an error fails with the error's code (R215). -/
theorem failsWith_of_raise {i : Instr} {s : State} {e : Error} {info : Word}
    (h : exec i s = raise e info s) : FailsWith i s (errorCode e) info := h

/-- A word whose operand fields its row does not accept is an illegal command (R82, R85, R86). -/
theorem step_of_not_accepts {s : State} {w : Word} {rest : List HostMove} {f : Format}
    (hp : s.pending = .command w :: rest) (hrow : opcodeMap.lookup (fieldOp w) = some f)
    (hf : ¬ f.Accepts (fieldIdx w) (fieldImm w)) :
    step s = .next (afterFailure 0x10 w { s with pending := rest }) := by
  cases hd : decode (.command w) with
  | ok i =>
    obtain ⟨f', hrow', hmask, -⟩ := decode_command_eq_ok.1 hd
    obtain rfl : f = f' := Option.some.inj (hrow.symm.trans hrow')
    exact absurd (Format.and_mask_eq_iff.1 hmask).2 hf
  | error e => exact step_of_decode_error hp hd

/-! ### Reading a cell of a buffer -/

section Read

variable {α : Type} {i : Instr} {s : State} {word : Word} {space : List α} {idx : Nat} {datum : α → Word}

/-- A command that reads a buffer answers a present cell and changes nothing (R61). -/
theorem answers_of_present (hexec : exec i s = respondCell word ((readCell space idx).map datum) s) (v : α)
    (hv : space[idx]? = some v) : Answers i s (datum v) s := by
  rw [readCell, hv, Option.map_some, respondCell_some] at hexec
  exact answers_of_respond hexec

/-- A command that reads a buffer fails with `OperandRangeError` at or beyond its length (R46, R61). -/
theorem failsWith_of_absent (hexec : exec i s = respondCell word ((readCell space idx).map datum) s)
    (hidx : space.length ≤ idx) : FailsWith i s 0x11 word := by
  rw [readCell, List.getElem?_eq_none hidx, Option.map_none, respondCell_none] at hexec
  exact failsWith_of_raise hexec

end Read

/-! ### Appending a cell to a buffer -/

/-- An immediate of at most 255 is the byte of its own value. -/
theorem byteOperand_of_le {imm : Half} (h : imm.toNat ≤ 255) :
    byteOperand imm = some (BitVec.ofNat 8 imm.toNat) :=
  byteOperand_eq_some.2 ⟨h, BitVec.ofNat_toNat 8 imm⟩

/-- SEEDPUSH of a byte appends it where the buffer has room (R121). -/
theorem exec_seedpush_of_room {s : State} {imm : Half} (himm : imm.toNat ≤ 255) (hroom : s.seed.length < 240) :
    exec (.seedpush imm) s = respond 0 { s with seed := s.seed ++ [BitVec.ofNat 8 imm.toNat] } := by
  have happend : appendCell Config.seedMax s.seed (BitVec.ofNat 8 imm.toNat) = some _ :=
    appendCell_eq_some.2 ⟨hroom, rfl⟩
  simp only [exec, execSeedpush, byteOperand_of_le himm, happend]

/-- SEEDPUSH of a value that is no byte is out of range, whatever room the buffer has (R121). -/
theorem exec_seedpush_of_wide {s : State} {imm : Half} (himm : 255 < imm.toNat) :
    exec (.seedpush imm) s = raise .operandRange (commandWord (.seedpush imm)) s := by
  simp only [exec, execSeedpush, byteOperand_eq_none.2 himm]

/-- SEEDPUSH of a byte finds no room in a full buffer (R121). -/
theorem exec_seedpush_of_full {s : State} {imm : Half} (himm : imm.toNat ≤ 255) (hfull : 240 ≤ s.seed.length) :
    exec (.seedpush imm) s = raise .capacity (commandWord (.seedpush imm)) s := by
  have happend : appendCell Config.seedMax s.seed (BitVec.ofNat 8 imm.toNat) = none :=
    appendCell_eq_none.2 hfull
  simp only [exec, execSeedpush, byteOperand_of_le himm, happend]

/-- LPUSH appends its operand where the list has room (R124). -/
theorem exec_lpush_of_room {s : State} {imm : Half} (hroom : s.lens.length < 256) :
    exec (.lpush imm) s = respond 0 { s with lens := s.lens ++ [imm] } := by
  have happend : appendCell Config.lMax s.lens imm = some _ := appendCell_eq_some.2 ⟨hroom, rfl⟩
  simp only [exec, execLpush, happend]

/-- LPUSH finds no room in a full list (R124). -/
theorem exec_lpush_of_full {s : State} {imm : Half} (hfull : 256 ≤ s.lens.length) :
    exec (.lpush imm) s = raise .capacity (commandWord (.lpush imm)) s := by
  have happend : appendCell Config.lMax s.lens imm = none := appendCell_eq_none.2 hfull
  simp only [exec, execLpush, happend]

/-! ### The derived Length List -/

/-- A derived Length List is the character codes and then the five suffix values (R127). -/
theorem lengthsOf_eq (chars : List Byte) :
    lengthsOf chars = chars.map (fun c => BitVec.ofNat 16 c.toNat) ++ [17, 31, 73, 47, 23] := by
  simp only [lengthsOf, List.map_append, BitVec.ofNat_toNat]
  rfl

/-- The entry of a character is its code. -/
theorem lengthsOf_getElem?_char {chars : List Byte} {i : Nat} {c : Byte} (h : chars[i]? = some c) :
    (lengthsOf chars)[i]? = some (BitVec.ofNat 16 c.toNat) := by
  obtain ⟨hi, -⟩ := List.getElem?_eq_some_iff.1 h
  rw [lengthsOf_eq, List.getElem?_append_left (by rwa [List.length_map]), List.getElem?_map, h, Option.map_some]

/-- After the characters stand the suffix values. -/
theorem lengthsOf_getElem?_suffix (chars : List Byte) (k : Nat) :
    (lengthsOf chars)[chars.length + k]? = ([17, 31, 73, 47, 23] : List Half)[k]? := by
  rw [lengthsOf_eq, List.getElem?_append_right (by simp), List.length_map, Nat.add_sub_cancel_left]

end Sys2Proof.Machine

namespace Sys2Proof.Proofs

open Sys2Proof Sys2Proof.Machine Sys2Proof.Certificates

/-- An opcode whose format makes `idx` zero has no command with a nonzero `idx` (R82, R85, R86). -/
theorem idxMustBeZero_of_row {op : Byte} {f : Format} (hrow : opcodeMap.lookup op = some f)
    (hf : ∀ idx imm, f.Accepts idx imm → idx = 0) : IdxMustBeZero op := by
  rintro s w rest hp rfl hidx
  exact step_of_not_accepts hp hrow fun h => hidx (hf _ _ h)

/-- An opcode of format `Z` has no command with a nonzero operand field. -/
theorem operandsMustBeZero_of_z {op : Byte} {c : Instr} (hrow : opcodeMap.lookup op = some (.z c)) :
    OperandsMustBeZero op :=
  ⟨idxMustBeZero_of_row hrow fun _ _ h => h.1, immMustBeZero_of_row hrow fun _ _ h => h.2⟩

/-- An opcode of format `I` has no command with a nonzero `idx`. -/
theorem idxMustBeZero_of_i {op : Byte} {c : Half → Instr} (hrow : opcodeMap.lookup op = some (.i c)) :
    IdxMustBeZero op := idxMustBeZero_of_row hrow fun _ _ h => h

/-- An opcode of format `X` has no command with a nonzero `imm`. -/
theorem immMustBeZero_of_x {op : Byte} {c : Byte → Instr} (hrow : opcodeMap.lookup op = some (.x c)) :
    ImmMustBeZero op := immMustBeZero_of_row hrow fun _ _ h => h

/-- Settles O26: the list is `lengthsOf` of the seed, read at a character and at each place of the suffix. -/
theorem deriveListsCodesThenSuffix : Obligations.DeriveListsCodesThenSuffix := by
  refine ⟨operandsMustBeZero_of_z (c := .derive) rfl, fun s => ⟨lengthsOf s.seed, ?answers, ?_⟩⟩
  case answers => exact answers_of_respond (t := deriveSeed s) rfl
  have hsuffix := lengthsOf_getElem?_suffix s.seed
  exact ⟨length_lengthsOf s.seed, fun _ _ => lengthsOf_getElem?_char, hsuffix 0, hsuffix 1, hsuffix 2,
    hsuffix 3, hsuffix 4⟩

/-- Settles O16: each of the five commands reads its buffer by the shared operation. -/
theorem bufferReadsAnswerPresentCellsOnly : Obligations.BufferReadsAnswerPresentCellsOnly := by
  refine ⟨⟨immMustBeZero_of_x (c := .seedget) rfl, immMustBeZero_of_x (c := .lget) rfl,
    immMustBeZero_of_x (c := .dget) rfl, immMustBeZero_of_x (c := .xget) rfl,
    immMustBeZero_of_x (c := .bget) rfl⟩, fun s idx => ?_⟩
  have hseed : exec (.seedget idx) s = respondCell _ ((readCell s.seed idx.toNat).map _) s := rfl
  have hlens : exec (.lget idx) s = respondCell _ ((readCell s.lens idx.toNat).map _) s := rfl
  have hdigest : exec (.dget idx) s = respondCell _ ((readCell s.digest idx.toNat).map _) s := rfl
  have hhex : exec (.xget idx) s = respondCell _ ((readCell s.hex idx.toNat).map _) s := rfl
  have hbits : exec (.bget idx) s = respondCell _ ((readCell s.bits idx.toNat).map _) s := rfl
  exact ⟨answers_of_present hseed, failsWith_of_absent hseed, answers_of_present hlens,
    failsWith_of_absent hlens, answers_of_present hdigest, failsWith_of_absent hdigest,
    answers_of_present hhex, failsWith_of_absent hhex, answers_of_present hbits, failsWith_of_absent hbits⟩

/-- Settles O20: the three cases of SEEDPUSH, the range before the capacity. -/
theorem seedpushAppendsOneCharacter : Obligations.SeedpushAppendsOneCharacter :=
  ⟨idxMustBeZero_of_i (c := .seedpush) rfl, fun _ _ =>
    ⟨fun himm hroom => answers_of_respond (exec_seedpush_of_room himm hroom),
      fun himm => failsWith_of_raise (exec_seedpush_of_wide himm),
      fun himm hfull => failsWith_of_raise (exec_seedpush_of_full himm hfull)⟩⟩

/-- Settles O21: LPUSH looks at the room in the list alone, not at its operand. -/
theorem lpushAppendsAnyValue : Obligations.LpushAppendsAnyValue :=
  ⟨idxMustBeZero_of_i (c := .lpush) rfl, fun _ _ =>
    ⟨fun hroom => answers_of_respond (exec_lpush_of_room hroom),
      fun hfull => failsWith_of_raise (exec_lpush_of_full hfull)⟩⟩

/-- Settles O25: each clear responds from the state with its own buffer empty. -/
theorem clearsEmptyOnlyTheirBuffer : Obligations.ClearsEmptyOnlyTheirBuffer :=
  ⟨⟨operandsMustBeZero_of_z (c := .seedclr) rfl, operandsMustBeZero_of_z (c := .lclr) rfl,
      operandsMustBeZero_of_z (c := .dclr) rfl, operandsMustBeZero_of_z (c := .xclr) rfl,
      operandsMustBeZero_of_z (c := .gclr) rfl⟩,
    fun s => ⟨answers_of_respond rfl, answers_of_respond rfl, answers_of_respond rfl, answers_of_respond rfl,
      answers_of_respond (t := clearGrid s) rfl⟩⟩

end Sys2Proof.Proofs
end

section
/-! PROOF. The dense reducer (42_dense_reducer.md R140, R143), and the commands that append a byte to a
buffer. -/

namespace Sys2Proof.Machine

/-! ### Appending a byte to a buffer -/

/-- A command that appends a byte: the operand's range, then the room below `cap`, then the longer buffer,
which `put` puts into the state (R214). -/
def pushByte (cap : Nat) (space : List Byte) (put : List Byte → State) (word : Word) (imm : Half)
    (s : State) : Result :=
  match byteOperand imm with
  | none => raise .operandRange word s
  | some c =>
    match appendCell cap space c with
    | none => raise .capacity word s
    | some longer => respond 0 (put longer)

/-- DPUSH pushes onto the digest (R143). -/
theorem exec_dpush (imm : Half) (s : State) :
    exec (.dpush imm) s =
      pushByte 16 s.digest (fun longer => { s with digest := longer }) (commandWord (.dpush imm)) imm s := rfl

section Push

variable {cap : Nat} {space : List Byte} {put : List Byte → State} {word : Word} {imm : Half} {i : Instr}
  {s : State}

/-- A push of a byte appends it where the buffer has room. -/
theorem answers_of_pushByte (hexec : exec i s = pushByte cap space put word imm s) (himm : imm.toNat ≤ 255)
    (hroom : space.length < cap) : Answers i s 0 (put (space ++ [BitVec.ofNat 8 imm.toNat])) := by
  have happend : appendCell cap space (BitVec.ofNat 8 imm.toNat) = some _ := appendCell_eq_some.2 ⟨hroom, rfl⟩
  simp only [pushByte, byteOperand_of_le himm, happend] at hexec
  exact answers_of_respond hexec

/-- A push of a value that is no byte is out of range, whatever room the buffer has. -/
theorem failsWith_of_pushByte_wide (hexec : exec i s = pushByte cap space put word imm s)
    (himm : 255 < imm.toNat) : FailsWith i s 0x11 word := by
  simp only [pushByte, byteOperand_eq_none.2 himm] at hexec
  exact failsWith_of_raise hexec

/-- A push of a byte finds no room in a full buffer. -/
theorem failsWith_of_pushByte_full (hexec : exec i s = pushByte cap space put word imm s)
    (himm : imm.toNat ≤ 255) (hfull : cap ≤ space.length) : FailsWith i s 0x12 word := by
  have happend : appendCell cap space (BitVec.ofNat 8 imm.toNat) = none := appendCell_eq_none.2 hfull
  simp only [pushByte, byteOperand_of_le himm, happend] at hexec
  exact failsWith_of_raise hexec

end Push

/-! ### Folding the blocks -/

/-- A full block of a list is the elements at its positions, in order. -/
theorem take_drop_eq_map_getD {α : Type} {l : List α} {start len : Nat} (h : start + len ≤ l.length) (d : α) :
    (l.drop start).take len = (List.range len).map fun k => l.getD (start + k) d := by
  refine List.ext_getElem ?length fun k _ hk => ?elements
  case length =>
    rw [List.length_take, List.length_drop, List.length_map, List.length_range]
    omega
  case elements =>
    rw [List.length_map, List.length_range] at hk
    rw [List.getElem_take, List.getElem_drop, List.getElem_map, List.getElem_range,
      List.getD_eq_getElem _ _ (by omega)]

/-- A block that lies within the cells folds to the exclusive or of its 16 cells (R140). -/
theorem foldBlock_eq_foldl {cells : List Byte} {b : Nat} (h : 16 * b + 16 ≤ cells.length) :
    foldBlock cells b = (List.range 16).foldl (fun acc k => acc ^^^ cells.getD (16 * b + k) 0) 0 := by
  have hblock : (cells.drop (Config.block * b)).take Config.block = _ := take_drop_eq_map_getD h 0
  rw [foldBlock, hblock, List.foldl_map]

/-- DENSE writes one byte for each whole block (R140). -/
theorem length_digest_foldDigest (s : State) : (foldDigest s).digest.length = s.n.toNat / 16 := by
  rw [foldDigest_digest, List.length_map, List.length_range, Config.block]

/-- Byte `b` of the digest that DENSE writes is the fold of block `b` (R140). -/
theorem digest_foldDigest_getElem? {s : State} {b : Nat} (hb : b < s.n.toNat / 16) :
    (foldDigest s).digest[b]? = some (foldBlock s.sparse.cells b) := by
  rw [foldDigest_digest, List.getElem?_map, Config.block, List.getElem?_range hb, Option.map_some]

/-- A DENSE over a length that is no multiple of 16 refuses the length (R140). -/
theorem exec_dense_of_not_multiple {s : State} (h : s.n.toNat % 16 ≠ 0) :
    exec .dense s = raise .invalidSparseLength (s.n.setWidth 32) s := if_pos h

end Sys2Proof.Machine

namespace Sys2Proof.Proofs

open Sys2Proof Sys2Proof.Machine Sys2Proof.Certificates

/-- Settles O38: a legal state holds exactly `N` cells, so each of the `N / 16` blocks lies within them. -/
theorem denseFoldsEachBlock : Obligations.DenseFoldsEachBlock := by
  refine ⟨operandsMustBeZero_of_z (c := .dense) rfl, fun s hs => ⟨fun hmul => ?multiple, fun hmul => ?other⟩⟩
  case multiple =>
    refine ⟨(foldDigest s).digest, answers_of_respond (execDense_of_multiple hmul),
      length_digest_foldDigest s, fun b hb => ?_⟩
    have hwithin : 16 * b + 16 ≤ s.sparse.cells.length := by
      rw [hs.sparse.length_cells]
      omega
    rw [digest_foldDigest_getElem? hb, foldBlock_eq_foldl hwithin]
  case other => exact failsWith_of_raise (exec_dense_of_not_multiple hmul)

/-- Settles O22: DPUSH is a push onto the digest, whose three cases are those of `pushByte`. -/
theorem dpushAppendsOneByte : Obligations.DpushAppendsOneByte :=
  ⟨idxMustBeZero_of_i (c := .dpush) rfl, fun s imm =>
    ⟨answers_of_pushByte (exec_dpush imm s), failsWith_of_pushByte_wide (exec_dpush imm s),
      failsWith_of_pushByte_full (exec_dpush imm s)⟩⟩

end Sys2Proof.Proofs
end

section
/-! PROOF. The hex codec: XPUSH (43_hex_codec.md R154), and HEXENC followed by HEXDEC (R158). -/

namespace Sys2Proof.Machine

/-- XPUSH pushes onto the hex buffer, whatever the character (R154). -/
theorem exec_xpush (imm : Half) (s : State) :
    exec (.xpush imm) s =
      pushByte 32 s.hex (fun longer => { s with hex := longer }) (commandWord (.xpush imm)) imm s := rfl

/-! ### Lists made of pieces of one width -/

section Pieces

variable {α β : Type} {f : α → List β} {width : Nat}

/-- Pieces of one width join to that width times their number. -/
theorem length_flatMap_of_width (hwidth : ∀ a, (f a).length = width) (l : List α) :
    (l.flatMap f).length = width * l.length := by
  simp [List.length_flatMap, hwidth, Nat.mul_comm]

/-- Among joined pieces of one width, place `k` of piece `i` is at `width * i + k`. -/
theorem getElem?_flatMap_of_width (hwidth : ∀ a, (f a).length = width) {l : List α} {i k : Nat} {a : α}
    (ha : l[i]? = some a) (hk : k < width) : (l.flatMap f)[width * i + k]? = (f a)[k]? := by
  induction l generalizing i with
  | nil => cases ha
  | cons b l ih =>
    rw [List.flatMap_cons]
    cases i with
    | zero =>
      obtain rfl : b = a := Option.some.inj ha
      rw [Nat.mul_zero, Nat.zero_add, List.getElem?_append_left (by rwa [hwidth])]
    | succ i =>
      rw [show width * (i + 1) + k = (f b).length + (width * i + k) by rw [hwidth]; ring,
        List.getElem?_append_right (Nat.le_add_right _ _), Nat.add_sub_cancel_left]
      exact ih ha

end Pieces

/-! ### The bits of a digest -/

/-- The bits of a byte, most significant first (R62 items 2 and 3). -/
def byteBits (b : Byte) : List Bool := (List.range 8).map fun k => b.getLsbD (7 - k)

@[simp] theorem length_byteBits (b : Byte) : (byteBits b).length = 8 := by simp [byteBits]

/-- Bit `k` from the most significant end. -/
theorem byteBits_getElem? (b : Byte) {k : Nat} (hk : k < 8) : (byteBits b)[k]? = some (b.getLsbD (7 - k)) := by
  rw [byteBits, List.getElem?_map, List.getElem?_range hk, Option.map_some]

/-- A hex digit expands to the bits of its value (R151, R155). -/
theorem charBits_hexDigit (v : BitVec 4) : charBits (hexDigit v) = nibbleBits v := by
  rw [charBits, hexVal_hexDigit]

/-- The high and the low half of a byte give its bits in order (R62). -/
theorem nibbleBits_append (b : Byte) :
    nibbleBits (b.extractLsb' 4 4) ++ nibbleBits (b.extractLsb' 0 4) = byteBits b := by
  simp [nibbleBits, byteBits, List.range_succ]

/-- The two characters of a byte expand to its bits (R150, R155). -/
theorem hexPair_flatMap_charBits (b : Byte) : (hexPair b).flatMap charBits = byteBits b := by
  rw [← nibbleBits_append, hexPair, List.flatMap_cons, List.flatMap_cons, List.flatMap_nil, List.append_nil,
    charBits_hexDigit, charBits_hexDigit]

/-- The characters of a digest expand to the bits of its bytes, one byte after the other (R158). -/
theorem flatMap_hexPair_flatMap_charBits (digest : List Byte) :
    (digest.flatMap hexPair).flatMap charBits = digest.flatMap byteBits := by
  rw [List.flatMap_assoc]
  exact congrArg (digest.flatMap ·) (funext hexPair_flatMap_charBits)

/-- HEXENC then HEXDEC run to their end on every state, since what HEXENC writes passes HEXDEC's check, and
leave the bits of the digest (R158). -/
theorem execAll_hexenc_hexdec (s : State) :
    ∃ t, execAll [.hexenc, .hexdec] s = .next t ∧ t.rsp = some ⟨0x00, 0⟩ ∧
      t.bits = s.digest.flatMap byteBits := by
  have hhexenc : exec .hexenc s = .next (answered 0 (encodeHex s)) := rfl
  have hhexdec : exec .hexdec (answered 0 (encodeHex s)) = .next _ :=
    execHexdec_of_passed (firstNonHex_flatMap_hexPair s.digest)
  exact ⟨_, (execAll_cons hhexenc).trans (execAll_cons hhexdec), rfl,
    flatMap_hexPair_flatMap_charBits s.digest⟩

end Sys2Proof.Machine

namespace Sys2Proof.Proofs

open Sys2Proof Sys2Proof.Machine Sys2Proof.Certificates

/-- Settles O42: the bit sequence is the digest with each byte expanded to its eight bits, so bit `k` of byte
`i` is at `8 * i + k`. -/
theorem hexRoundTripIsTheBitExpansion : Obligations.HexRoundTripIsTheBitExpansion := by
  intro s
  obtain ⟨t, hrun, hrsp, hbits⟩ := execAll_hexenc_hexdec s
  refine ⟨t, hrun, hrsp, ?length, fun i b hb k hk => ?bit⟩
  case length => rw [hbits, length_flatMap_of_width length_byteBits]
  case bit => rw [hbits, getElem?_flatMap_of_width length_byteBits hb hk, byteBits_getElem? b hk]

/-- Settles O23: XPUSH is a push onto the hex buffer, whose three cases are those of `pushByte`. -/
theorem xpushAppendsOneCharacter : Obligations.XpushAppendsOneCharacter :=
  ⟨idxMustBeZero_of_i (c := .xpush) rfl, fun s imm =>
    ⟨answers_of_pushByte (exec_xpush imm s), failsWith_of_pushByte_wide (exec_xpush imm s),
      failsWith_of_pushByte_full (exec_xpush imm s)⟩⟩

end Sys2Proof.Proofs
end

section
/-! PROOF. The grid memory (44_bitmap_synthesizer.md): GPUSH, GGET and GWGET (R171 to R173), and the number of
set cells that COUNT answers (R174). -/

namespace Sys2Proof.Machine

open Sys2Proof.Certificates

/-! ### Appending a row -/

/-- GPUSH appends the bit sequence where the grid has room (R171). -/
theorem exec_gpush_of_room {s : State} (hroom : s.grid.length < 128) :
    exec .gpush s = respond 0 (pushRow s) := by
  have happend : appendCell Config.gridH s.grid s.bits = some _ := appendCell_eq_some.2 ⟨hroom, rfl⟩
  simp only [exec, execGpush, happend]

/-- GPUSH finds no room in a full grid (R171). -/
theorem exec_gpush_of_full {s : State} (hfull : 128 ≤ s.grid.length) :
    exec .gpush s = raise .capacity (commandWord .gpush) s := by
  have happend : appendCell Config.gridH s.grid s.bits = none := appendCell_eq_none.2 hfull
  simp only [exec, execGpush, happend]

/-! ### Reading the grid -/

/-- In a present row GGET reads a cell as the buffer reads do (R172). -/
theorem exec_gget_of_row {s : State} {idx : Byte} {row : List Bool} (hrow : s.grid[idx.toNat]? = some row)
    (imm : Half) :
    exec (.gget idx imm) s =
      respondCell (commandWord (.gget idx imm)) ((readCell row imm.toNat).map bitWord) s := by
  have hread : readCell s.grid idx.toNat = some row := hrow
  simp only [exec, execGget, hread]

/-- GGET of an absent row is out of range, whatever the column (R172, R214). -/
theorem exec_gget_of_no_row {s : State} {idx : Byte} (habsent : s.grid.length ≤ idx.toNat) (imm : Half) :
    exec (.gget idx imm) s = raise .operandRange (commandWord (.gget idx imm)) s := by
  have hread : readCell s.grid idx.toNat = none := List.getElem?_eq_none habsent
  simp only [exec, execGget, hread]

/-- GWGET reads the grid as a buffer of rows, each answered as its width (R48, R173). -/
theorem exec_gwget (idx : Byte) (s : State) :
    exec (.gwget idx) s =
      respondCell (commandWord (.gwget idx))
        ((readCell s.grid idx.toNat).map fun row => BitVec.ofNat 32 row.length) s := rfl

/-! ### Counting the set cells -/

/-- COUNT answers the number of set cells and stores it in `UCNT` (R174). -/
theorem exec_count (s : State) :
    exec .count s =
      respond (BitVec.ofNat 32 (usedCells s.grid)) { s with ucnt := BitVec.ofNat 15 (usedCells s.grid) } := rfl

/-- The columns of the set cells of a row. -/
abbrev SetColumn (row : List Bool) : Type := { c : Fin row.length // row[c] = true }

/-- A row has as many set columns as it holds set cells. -/
theorem card_setColumn (row : List Bool) : Nat.card (SetColumn row) = row.count true := by
  rw [Nat.card_eq_fintype_card, Fintype.card_subtype]
  exact Fin.card_filter_univ_eq_vector_get_eq_count true ⟨row, rfl⟩

/-- The cell of the grid in a row and at a set column of that row. -/
def setCellOf (g : List (List Bool)) (p : Σ r : Fin g.length, SetColumn g[r]) : SetCell g :=
  ⟨(p.1, p.2.1), by simpa using p.2.2⟩

/-- The set cells of a grid are the set columns of its rows, row by row. -/
theorem setCellOf_bijective (g : List (List Bool)) : Function.Bijective (setCellOf g) := by
  constructor
  case left =>
    rintro ⟨⟨r, hr⟩, ⟨c, hc⟩, hset⟩ ⟨⟨r', hr'⟩, ⟨c', hc'⟩, hset'⟩ h
    obtain ⟨rfl, rfl⟩ : r = r' ∧ c = c' := Prod.mk.inj (congrArg Subtype.val h)
    rfl
  case right =>
    rintro ⟨⟨r, c⟩, hcell⟩
    obtain ⟨row, hrow, hset⟩ := Option.bind_eq_some_iff.1 hcell
    obtain ⟨hr, rfl⟩ := List.getElem?_eq_some_iff.1 hrow
    obtain ⟨hc, hset⟩ := List.getElem?_eq_some_iff.1 hset
    exact ⟨⟨⟨r, hr⟩, ⟨c, hc⟩, hset⟩, rfl⟩

/-- `usedCells` is the number of set cells, whatever the widths of the rows (R174). -/
theorem card_setCell (g : List (List Bool)) : Nat.card (SetCell g) = usedCells g := by
  calc Nat.card (SetCell g)
      = ∑ r : Fin g.length, Nat.card (SetColumn g[r]) := by
        rw [← Nat.card_eq_of_bijective _ (setCellOf_bijective g), Nat.card_sigma]
    _ = ∑ r : Fin g.length, g[r].count true := by simp only [card_setColumn]
    _ = usedCells g := Fin.sum_univ_fun_getElem g (·.count true)

/-- Rows of at most `width` cells hold at most `width` set cells each. -/
theorem usedCells_le {g : List (List Bool)} {width : Nat} (hwidth : ∀ row ∈ g, row.length ≤ width) :
    usedCells g ≤ g.length * width := by
  have hcount : ∀ k ∈ g.map (·.count true), k ≤ width := by
    intro k hk
    obtain ⟨row, hrow, rfl⟩ := List.mem_map.1 hk
    exact List.count_le_length.trans (hwidth row hrow)
  simpa [usedCells] using List.sum_le_card_nsmul _ _ hcount

/-- A row of legal width has at most 128 cells (R34). -/
theorem length_le_of_bitRowOk {row : List Bool} (h : bitRowOk row = true) : row.length ≤ 128 := by
  rw [bitRowOk, Bool.and_eq_true, decide_eq_true_eq] at h
  exact h.1

/-- A grid in canonical form has at most `H * W` set cells (R36). -/
theorem usedCells_le_of_wf {s : State} (h : Memory.wf s = true) : usedCells s.grid ≤ 16384 := by
  obtain ⟨-, -, -, -, -, hrows, hwidths⟩ := (Memory.wf_iff s).1 h
  calc usedCells s.grid
      ≤ s.grid.length * 128 := usedCells_le fun row hrow => length_le_of_bitRowOk (hwidths row hrow)
    _ ≤ 128 * 128 := Nat.mul_le_mul_right 128 hrows

end Sys2Proof.Machine

namespace Sys2Proof.Proofs

open Sys2Proof Sys2Proof.Machine Sys2Proof.Certificates

/-- Settles O43: what COUNT sums row by row is the number of set cells, and a legal grid is at most 128 by 128. -/
theorem countAnswersTheSetCells : Obligations.CountAnswersTheSetCells := by
  refine ⟨operandsMustBeZero_of_z (c := .count) rfl, fun s hs => ?_⟩
  rw [card_setCell]
  exact ⟨usedCells_le_of_wf hs.spaces, answers_of_respond (exec_count s)⟩

/-- Settles O18: an absent row fails at once; in a present one the column is read as a buffer's cell is. -/
theorem ggetReadsAPresentCell : Obligations.GgetReadsAPresentCell := fun _ _ imm =>
  ⟨fun _ v hrow => answers_of_present (exec_gget_of_row hrow imm) v,
    fun habsent => failsWith_of_raise (exec_gget_of_no_row habsent imm),
    fun _ hrow => failsWith_of_absent (exec_gget_of_row hrow imm)⟩

/-- Settles O19: the grid is read as a buffer of rows. -/
theorem gwgetReadsTheRowWidth : Obligations.GwgetReadsTheRowWidth :=
  ⟨immMustBeZero_of_x (c := .gwget) rfl, fun s idx =>
    ⟨answers_of_present (exec_gwget idx s), failsWith_of_absent (exec_gwget idx s)⟩⟩

/-- Settles O24: GPUSH looks at the room in the grid alone, not at the width of the row. -/
theorem gpushAppendsTheBitRow : Obligations.GpushAppendsTheBitRow :=
  ⟨operandsMustBeZero_of_z (c := .gpush) rfl, fun s =>
    ⟨fun hroom => answers_of_respond (t := pushRow s) (exec_gpush_of_room hroom),
      fun hfull => failsWith_of_raise (exec_gpush_of_full hfull)⟩⟩

end Sys2Proof.Proofs
end

section
/-! PROOF. The system commands CSRR, CSRW and CLRERR (46_system.md R200 to R202), with the register numbers of
10_state.md R42. -/

namespace Sys2Proof.Machine

/-! ### Register numbers -/

/-- The number of a control or status register (R42). -/
def Csr.number : Csr → Byte
  | .n => 0x00
  | .rounds => 0x01
  | .pos => 0x02
  | .skip => 0x03
  | .slen => 0x04
  | .llen => 0x05
  | .dlen => 0x06
  | .xlen => 0x07
  | .blen => 0x08
  | .gh => 0x09
  | .ucnt => 0x0A
  | .rcnt => 0x0B
  | .err => 0x0C
  | .errInfo => 0x0D
  | .sfx0 => 0x10
  | .sfx1 => 0x11
  | .sfx2 => 0x12
  | .sfx3 => 0x13
  | .sfx4 => 0x14

/-- A number names a register exactly when it is the register's own (R42). -/
theorem csrOfNumber_eq_some {idx : Byte} {c : Csr} : csrOfNumber idx = some c ↔ idx = c.number := by
  constructor
  · intro h
    unfold csrOfNumber at h
    split at h <;> cases h <;> exact BitVec.eq_of_toNat_eq ‹_›
  · rintro rfl
    cases c <;> rfl

/-- The defined numbers are 0x00 to 0x0D and 0x10 to 0x14 (R200). -/
theorem Csr.number_range (c : Csr) :
    c.number.toNat ≤ 0x0D ∨ (0x10 ≤ c.number.toNat ∧ c.number.toNat ≤ 0x14) := by
  cases c <;> decide

/-- A number outside the defined ones names no register (R42). -/
theorem csrOfNumber_eq_none_of_undefined {idx : Byte} (h : idx = 0x0E ∨ idx = 0x0F ∨ 0x15 ≤ idx.toNat) :
    csrOfNumber idx = none := by
  cases hc : csrOfNumber idx with
  | none => rfl
  | some c =>
    have hrange := c.number_range
    rw [← csrOfNumber_eq_some.1 hc] at hrange
    bv_omega

/-- CSRR of an undefined number is out of range (R200). -/
theorem exec_csrr_of_undefined {idx : Byte} (h : csrOfNumber idx = none) (s : State) :
    exec (.csrr idx) s = raise .operandRange (commandWord (.csrr idx)) s := by
  rw [exec_csrr, h, Option.map_none, respondCell_none]

/-! ### What CSRW writes -/

/-- CSRW responds from the state that it writes (R201). -/
theorem answers_csrw {idx : Byte} {imm : Half} {s t : State} (h : csrWritten idx imm s = some t) :
    Answers (.csrw idx imm) s 0 t :=
  answers_of_respond (by simp only [exec, execCsrw, h])

/-- CSRW of what it cannot write is out of range (R201). -/
theorem failsWith_csrw {idx : Byte} {imm : Half} {s : State} (h : csrWritten idx imm s = none) :
    FailsWith (.csrw idx imm) s 0x11 (commandWord (.csrw idx imm)) :=
  failsWith_of_raise (e := .operandRange) (by simp only [exec, execCsrw, h])

/-- A write of register 0x00 is one of `N`, whose range is checked (R26, R201). -/
theorem csrWritten_n (imm : Half) (s : State) :
    csrWritten 0x00 imm s =
      if imm.toNat < 1 ∨ 256 < imm.toNat then none else some (writeN imm.toNat s) := rfl

/-- A write of register 0x01 is one of `ROUNDS`, whatever the value (R27, R201). -/
theorem csrWritten_rounds (imm : Half) (s : State) : csrWritten 0x01 imm s = some (writeRounds imm s) := rfl

/-- No register but 0x00 and 0x01 is writable (R201). -/
theorem csrWritten_eq_none_of_two_le {idx : Byte} (h : 2 ≤ idx.toNat) (imm : Half) (s : State) :
    csrWritten idx imm s = none := by
  cases hw : csrWritten idx imm s with
  | none => rfl
  | some t =>
    obtain ⟨hn, -⟩ | ⟨hrounds, -⟩ := csrWritten_eq_some hw
    · rw [csrOfNumber_eq_some.1 hn] at h
      exact absurd h (by decide)
    · rw [csrOfNumber_eq_some.1 hrounds] at h
      exact absurd h (by decide)

end Sys2Proof.Machine

namespace Sys2Proof.Proofs

open Sys2Proof Sys2Proof.Machine Sys2Proof.Certificates

/-- Settles O12: each listed number names its register, and the others name none. -/
theorem csrrReadsEveryRegister : Obligations.CsrrReadsEveryRegister := by
  refine ⟨immMustBeZero_of_x (c := .csrr) rfl, fun s => ?_⟩
  have hread : ∀ c : Csr, Answers (.csrr c.number) s (csrValue s c) s :=
    fun _ => answers_csrr (csrOfNumber_eq_some.2 rfl) s
  exact ⟨hread .n, hread .rounds, hread .pos, hread .skip, hread .slen, hread .llen, hread .dlen,
    hread .xlen, hread .blen, hread .gh, hread .ucnt, hread .rcnt, hread .err, hread .errInfo,
    hread .sfx0, hread .sfx1, hread .sfx2, hread .sfx3, hread .sfx4,
    fun _ hidx => failsWith_of_raise (exec_csrr_of_undefined (csrOfNumber_eq_none_of_undefined hidx) s)⟩

/-- Settles O13: a write of `N` in range leaves the fresh sparse state of that length, and the numbers above
0x01 name no writable register. -/
theorem csrwWritesNOrRounds : Obligations.CsrwWritesNOrRounds := by
  refine fun s imm => ⟨fun hpos hle => ?inRange, fun hout => ?outOfRange,
    answers_csrw (csrWritten_rounds imm s),
    fun _ hidx => failsWith_csrw (csrWritten_eq_none_of_two_le hidx imm s)⟩
  case inRange =>
    have hwritten : csrWritten 0x00 imm s = some (writeN imm.toNat s) :=
      (csrWritten_n imm s).trans (if_neg (by omega))
    exact ⟨freshSparse imm.toNat, answers_csrw hwritten, length_freshSparse _,
      fun _ hj => freshSparse_getElem? hj, rfl, rfl⟩
  case outOfRange =>
    exact failsWith_csrw ((csrWritten_n imm s).trans (if_pos (by omega)))

/-- Settles O14: CLRERR responds from the state with the capture cleared. -/
theorem clrerrClearsOnlyTheCapture : Obligations.ClrerrClearsOnlyTheCapture :=
  ⟨operandsMustBeZero_of_z (c := .clrerr) rfl, fun s => answers_of_respond (t := clearCapture s) rfl⟩

end Sys2Proof.Proofs
end

section
/-! PROOF. The failure of a command (60_exceptions.md R215): a command has two outcomes, a response and a raised
error, and every error is raised on the state in which the command is taken. -/

namespace Sys2Proof

/-- No row of the opcode map makes a length instruction (R88). -/
theorem Format.make_ne_len {op : Byte} {f : Format} (h : (op, f) ∈ opcodeMap) (idx : Byte) (imm v : Half) :
    f.make idx imm ≠ .len v := by
  have hrows : ∀ row ∈ opcodeMap, row.2.make idx imm ≠ .len v := by
    simp [opcodeMap, Format.make]
  exact hrows (op, f) h

/-- No command word decodes to a length instruction: it is no command (R88). -/
theorem ne_len_of_decode_command {w : Word} {i : Instr} (h : decode (.command w) = .ok i) (v : Half) :
    i ≠ .len v := by
  obtain ⟨f, hrow, -, rfl⟩ := decode_command_eq_ok.1 h
  exact Format.make_ne_len (mem_opcodeMap_of_lookup hrow) _ _ v

end Sys2Proof

namespace Sys2Proof.Machine

/-! ### The outcome of a command -/

/-- What a command taken in `s` comes to: a successful response, from whatever state it has made, or an error
raised on `s` itself, with nothing changed before (R12, R215). -/
inductive CommandOutcome (s : State) : Result → Prop
  | responds (data : Word) (t : State) : CommandOutcome s (respond data t)
  | raises (e : Error) (info : Word) : CommandOutcome s (raise e info s)

/-- A command whose status is not 0x00 has raised the error with that code and info. -/
theorem CommandOutcome.eq_failed {s t : State} {r : Result} {code : Byte} {info : Word} (h : CommandOutcome s r)
    (hnext : r = .next t) (hrsp : t.rsp = some ⟨code, info⟩) (hcode : code ≠ 0x00) :
    ∃ e, code = errorCode e ∧ t = failed e info s := by
  cases h with
  | responds data u =>
    obtain rfl := respond_eq_next hnext
    rw [answered_rsp] at hrsp
    cases hrsp
    exact absurd rfl hcode
  | raises e info' =>
    obtain rfl := raise_eq_next hnext
    rw [failed_rsp] at hrsp
    cases hrsp
    exact ⟨e, rfl, rfl⟩

/-- A read of a cell responds with it, or raises. -/
theorem commandOutcome_respondCell (word : Word) (cell : Option Word) (s : State) :
    CommandOutcome s (respondCell word cell s) := by
  cases cell with
  | none => exact .raises _ _
  | some v => exact .responds _ _

/-- A push of a byte raises in each of its two checks, and past them responds (R214). -/
theorem commandOutcome_pushByte (cap : Nat) (space : List Byte) (put : List Byte → State) (word : Word)
    (imm : Half) (s : State) : CommandOutcome s (pushByte cap space put word imm s) := by
  unfold pushByte
  split
  · exact .raises _ _
  · split
    · exact .raises _ _
    · exact .responds _ _

/-- SEEDPUSH pushes onto the seed buffer (R121). -/
theorem exec_seedpush (imm : Half) (s : State) :
    exec (.seedpush imm) s =
      pushByte 240 s.seed (fun longer => { s with seed := longer }) (commandWord (.seedpush imm)) imm s := rfl

/-- RUN with no round to make does not check the list; else it raises in that check, or responds (R130). -/
theorem commandOutcome_execRun (s : State) : CommandOutcome s (execRun s) := by
  unfold execRun
  split
  · exact .responds _ _
  · split
    · exact .raises _ _
    · exact .responds _ _

/-- GGET of an absent row raises; in a present row it is a read of a cell (R172, R214). -/
theorem commandOutcome_execGget (idx : Byte) (imm : Half) (s : State) :
    CommandOutcome s (execGget idx imm s) := by
  unfold execGget
  split
  · exact .raises _ _
  · exact commandOutcome_respondCell _ _ _

/-- Every instruction but the length instruction responds or raises: it checks before it changes anything, and
a failed check raises on the state it began in (R215). -/
theorem commandOutcome_exec {i : Instr} (hi : ∀ v, i ≠ .len v) (s : State) : CommandOutcome s (exec i s) := by
  cases i with
  | clrerr | reset | seedclr | lclr | derive | deriver _ | init | dclr | hexenc | xclr | gclr | count | hash
  | rowgen => exact .responds _ _
  | csrr _ | seedget _ | lget _ | sget _ | dget _ | xget _ | bget _ | gwget _ =>
    exact commandOutcome_respondCell _ _ s
  | seedpush imm => exact exec_seedpush imm s ▸ commandOutcome_pushByte _ _ _ _ _ s
  | dpush imm => exact exec_dpush imm s ▸ commandOutcome_pushByte _ _ _ _ _ s
  | xpush imm => exact exec_xpush imm s ▸ commandOutcome_pushByte _ _ _ _ _ s
  | run => exact commandOutcome_execRun s
  | gget idx imm => exact commandOutcome_execGget idx imm s
  | csrw _ _ | lpush _ | mix _ | dense | hexdec | gpush | region =>
    simp only [exec, execCsrw, execLpush, execMix, execDense, execHexdec, execGpush, execRegion]
    split
    · exact .raises _ _
    · exact .responds _ _
  | len v => exact absurd rfl (hi v)

/-- A word that selects a command executes it (R85). -/
theorem step_of_decode_ok {s : State} {w : Word} {rest : List HostMove} {i : Instr}
    (hp : s.pending = .command w :: rest) (hd : decode (.command w) = .ok i) :
    step s = exec i { s with pending := rest } := by
  have htake : takeMove s = some (.command w, { s with pending := rest }) :=
    takeMove_eq_some.2 ⟨rest, hp, rfl⟩
  simp only [step, htake, hd]

/-- The step that takes a command word responds or raises, whether or not the word selects a command. -/
theorem commandOutcome_step {s : State} {w : Word} {rest : List HostMove}
    (hp : s.pending = .command w :: rest) : CommandOutcome { s with pending := rest } (step s) := by
  cases hd : decode (.command w) with
  | ok i =>
    rw [step_of_decode_ok hp hd]
    exact commandOutcome_exec (ne_len_of_decode_command hd) _
  | error e =>
    rw [step_of_decode_error hp hd]
    exact .raises .illegalCommand w

end Sys2Proof.Machine

namespace Sys2Proof.Proofs

open Sys2Proof Sys2Proof.Machine Sys2Proof.Certificates

/-- The code of every error is one of the eight of R210. -/
theorem errorCode_mem_errorCodes (e : Error) : errorCode e ∈ errorCodes := by
  cases e <;> decide

/-- Settles O52: a status other than 0x00 is that of an error raised on the state in which the command was
taken. -/
theorem failureChangesOnlyTheCapture : Obligations.FailureChangesOnlyTheCapture := by
  intro s t w rest code info hp hstep hrsp hcode
  obtain ⟨e, rfl, ht⟩ := (commandOutcome_step hp).eq_failed hstep hrsp hcode
  exact ⟨errorCode_mem_errorCodes e, ht⟩

end Sys2Proof.Proofs
end

section
/-! PROOF. Decoding and encoding undo each other (30_encoding.md R80 to R88), and a step that takes a word
which decodes (00_scope.md R11). -/

namespace Sys2Proof

/-- A word assembled from an opcode and operands that its row accepts decodes by that row (R82, R85). -/
theorem decode_assemble {op idx : Byte} {imm : Half} {f : Format} (hrow : opcodeMap.lookup op = some f)
    (hf : f.Accepts idx imm) : decode (.command (assemble op idx imm)) = .ok (f.make idx imm) := by
  refine decode_command_eq_ok.2 ⟨f, ?row, ?mask, ?make⟩
  case row => rw [fieldOp_assemble, hrow]
  case mask =>
    refine Format.and_mask_eq_iff.2 ⟨rfl, ?_⟩
    rwa [fieldIdx_assemble, fieldImm_assemble]
  case make => rw [fieldIdx_assemble, fieldImm_assemble]

/-- A command of format `Z` is decoded from its opcode alone. -/
theorem decode_assemble_z {op : Byte} {c : Instr} (hrow : opcodeMap.lookup op = some (.z c)) :
    decode (.command (assemble op 0#8 0#16)) = .ok c := decode_assemble hrow ⟨rfl, rfl⟩

/-- A command of format `I` is decoded with its immediate. -/
theorem decode_assemble_i {op : Byte} {c : Half → Instr} (hrow : opcodeMap.lookup op = some (.i c))
    (imm : Half) : decode (.command (assemble op 0#8 imm)) = .ok (c imm) := decode_assemble hrow rfl

/-- A command of format `X` is decoded with its index. -/
theorem decode_assemble_x {op : Byte} {c : Byte → Instr} (hrow : opcodeMap.lookup op = some (.x c))
    (idx : Byte) : decode (.command (assemble op idx 0#16)) = .ok (c idx) := decode_assemble hrow rfl

/-- A command of format `XI` is decoded with both operands. -/
theorem decode_assemble_xi {op : Byte} {c : Byte → Half → Instr} (hrow : opcodeMap.lookup op = some (.xi c))
    (idx : Byte) (imm : Half) : decode (.command (assemble op idx imm)) = .ok (c idx imm) :=
  decode_assemble hrow trivial

/-- What a row makes from operands it accepts is encoded as the row's opcode with these operands (R84). -/
theorem encode_make {op idx : Byte} {imm : Half} {f : Format} (hrow : (op, f) ∈ opcodeMap)
    (hf : f.Accepts idx imm) : encode (f.make idx imm) = .command (assemble op idx imm) := by
  have hrows : ∀ row ∈ opcodeMap, row.2.Accepts idx imm →
      encode (row.2.make idx imm) = .command (assemble row.1 idx imm) := by
    simp +contextual [opcodeMap, Format.Accepts, Format.make, encode]
  exact hrows (op, f) hrow hf

/-- A word that decodes to an instruction is the word of that instruction. -/
theorem encode_of_decode_command {w : Word} {i : Instr} (h : decode (.command w) = .ok i) :
    encode i = .command w := by
  obtain ⟨f, hrow, hmask, rfl⟩ := decode_command_eq_ok.1 h
  rw [encode_make (mem_opcodeMap_of_lookup hrow) (Format.and_mask_eq_iff.1 hmask).2, assemble_fields]

end Sys2Proof

namespace Sys2Proof.Proofs

open Sys2Proof Sys2Proof.Machine Sys2Proof.Certificates

/-- Settles O1: each command's word is assembled as its row reads it, and a length instruction is its own
code. -/
theorem decodeInvertsEncode : Obligations.DecodeInvertsEncode := by
  intro i
  cases i with
  | clrerr | reset | seedclr | lclr | derive | init | run | dense | dclr | hexenc | xclr | hexdec | gclr
  | gpush | count | hash | rowgen | region => exact decode_assemble_z rfl
  | seedpush imm | lpush imm | mix imm | dpush imm | xpush imm => exact decode_assemble_i rfl imm
  | csrr idx | seedget idx | lget idx | deriver idx | sget idx | dget idx | xget idx | bget idx
  | gwget idx => exact decode_assemble_x rfl idx
  | csrw idx imm | gget idx imm => exact decode_assemble_xi rfl idx imm
  | len v => rfl

/-- Settles O2: a command word is assembled again from the fields its row read, and a Length List entry is
its own code. -/
theorem encodeInvertsDecode : Obligations.EncodeInvertsDecode := by
  intro c i h
  cases c with
  | command w => exact encode_of_decode_command h
  | length v =>
    obtain rfl : Instr.len v = i := Except.ok.inj h
    rfl

/-- Settles O4: each word is the code of the instruction it is to decode to. -/
theorem exampleWordsDecode : Obligations.ExampleWordsDecode :=
  ⟨decodeInvertsEncode (.gget 0 7), decodeInvertsEncode (.csrw 0 5), decodeInvertsEncode (.csrw 0 256),
    decodeInvertsEncode (.mix 256), decodeInvertsEncode (.gget 127 127), decodeInvertsEncode (.deriver 127),
    decodeInvertsEncode (.lpush 65535), decodeInvertsEncode (.dpush 0xA2), decodeInvertsEncode (.xget 15),
    decodeInvertsEncode .region, decodeInvertsEncode (.len 261)⟩

/-- Settles O5: the step takes the move and runs what the word decodes to. -/
theorem stepRunsTheDecodedCommand : Obligations.StepRunsTheDecodedCommand :=
  fun _ _ _ _ hp hd => step_of_decode_ok hp hd

end Sys2Proof.Proofs
end

section
/-! PROOF. What an instruction changes (10_state.md R49): every instruction fails, or passes its checks and
leaves its execute phase with a response of its own. From this follow the write sets and the fate of the
capture (60_exceptions.md R215, R216). -/

namespace Sys2Proof.Machine

/-! ### The execute phase -/

/-- The inner commands of ROWGEN for these rows, one row after another (R177). -/
def makeRows (rows : List Nat) (s : State) : State := rows.foldl makeRow s

/-- The execute phase of an instruction: what it changes besides `RSP` once its checks have passed. -/
def executed : Instr → State → State
  | .csrw idx imm, s => if idx = 0x00 then writeN imm.toNat s else writeRounds imm s
  | .clrerr, s => clearCapture s
  | .reset, s => resetEngine s
  | .seedclr, s => { s with seed := [] }
  | .seedpush imm, s => { s with seed := s.seed ++ [imm.setWidth 8] }
  | .lclr, s => { s with lens := [] }
  | .lpush imm, s => { s with lens := s.lens ++ [imm] }
  | .derive, s => deriveSeed s
  | .deriver idx, s => deriveRow idx.toNat s
  | .init, s => { s with sparse := freshSparse s.n.toNat }
  | .mix v, s | .len v, s => { s with sparse := mixStep s.n.toNat s.sparse v }
  | .run, s => runList s
  | .dense, s => foldDigest s
  | .dclr, s => { s with digest := [] }
  | .dpush imm, s => { s with digest := s.digest ++ [imm.setWidth 8] }
  | .hexenc, s => encodeHex s
  | .xclr, s => { s with hex := [] }
  | .xpush imm, s => { s with hex := s.hex ++ [imm.setWidth 8] }
  | .hexdec, s => decodeHex s
  | .gclr, s => clearGrid s
  | .gpush, s => pushRow s
  | .count, s => { s with ucnt := BitVec.ofNat 15 (usedCells s.grid) }
  | .hash, s => hashLengths (deriveSeed (forceHashConfig s))
  | .rowgen, s => makeRows (List.range 128) (clearGrid (forceHashConfig s))
  | .region, s => { s with rcnt := BitVec.ofNat 14 (regionCount s.grid s.grid.length (firstWidth s.grid)) }
  | .csrr _, s | .seedget _, s | .lget _, s | .sget _, s | .dget _, s | .xget _, s | .bget _, s
  | .gget _ _, s | .gwget _, s => s

/-- What the checks of an instruction make sure of before its execute phase: the range of `N`, the room in a
buffer, the room in `SKIP`, a rectangular grid. -/
def Passes : Instr → State → Prop
  | .csrw idx imm, _ => (idx = 0x00 ∧ 1 ≤ imm.toNat ∧ imm.toNat ≤ 256) ∨ idx = 0x01
  | .seedpush _, s => s.seed.length < 240
  | .lpush _, s => s.lens.length < 256
  | .dpush _, s => s.digest.length < 16
  | .xpush _, s => s.hex.length < 32
  | .gpush, s => s.grid.length < 128
  | .mix v, s | .len v, s => v.toNat ≤ s.n.toNat ∧ s.sparse.skip.toNat ≠ Config.skipMax
  | .region, s => firstRagged s.grid = none
  | _, _ => True

/-- An instruction that answers `t` has failed, or has passed its checks and left its execute phase with some
response. -/
inductive Ran (i : Instr) (s t : State) : Prop
  | failed (e : Error) (info : Word) (h : t = failed e info s)
  | passed (hpasses : Passes i s) (rsp : Option Response) (h : t = { executed i s with rsp := rsp })

/-- An error raised on the state itself is a failure. -/
theorem ran_of_raise {i : Instr} {e : Error} {info : Word} {s t : State} (h : raise e info s = .next t) :
    Ran i s t := .failed e info (raise_eq_next h)

/-- A response from the execute phase, once the checks have passed. -/
theorem ran_of_respond {i : Instr} {data : Word} {s t : State} (h : respond data (executed i s) = .next t)
    (hpasses : Passes i s) : Ran i s t := .passed hpasses _ (respond_eq_next h)

/-- A read of a cell changes nothing but the response, or fails. -/
theorem ran_of_respondCell {i : Instr} {word : Word} {cell : Option Word} {s t : State}
    (h : respondCell word cell s = .next t) (hpasses : Passes i s) (hread : executed i s = s) : Ran i s t := by
  obtain ⟨v, -, rfl⟩ | ⟨-, rfl⟩ := respondCell_eq_next h
  · exact .passed hpasses (some ⟨successCode, v⟩) (by rw [hread]; rfl)
  · exact .failed _ _ rfl

/-- A push of a byte fails in one of its two checks, or appends the byte. -/
theorem ran_of_pushByte {i : Instr} {cap : Nat} {space : List Byte} {put : List Byte → State} {word : Word}
    {imm : Half} {s t : State} (h : pushByte cap space put word imm s = .next t)
    (hpasses : space.length < cap → Passes i s) (hput : put (space ++ [imm.setWidth 8]) = executed i s) :
    Ran i s t := by
  unfold pushByte at h
  split at h
  · exact ran_of_raise h
  · rename_i c hc
    obtain ⟨-, rfl⟩ := byteOperand_eq_some.1 hc
    split at h
    · exact ran_of_raise h
    · rename_i longer happend
      obtain ⟨hroom, rfl⟩ := appendCell_eq_some.1 happend
      exact ran_of_respond (hput ▸ h) (hpasses hroom)

/-- CSRW fails, or writes one of its two registers. -/
theorem ran_of_csrw {idx : Byte} {imm : Half} {s t : State} (h : exec (.csrw idx imm) s = .next t) :
    Ran (.csrw idx imm) s t := by
  simp only [exec, execCsrw] at h
  split at h
  · exact ran_of_raise h
  · rename_i u hu
    obtain ⟨hn, hpos, hle, rfl⟩ | ⟨hrounds, rfl⟩ := csrWritten_eq_some hu
    · obtain rfl := csrOfNumber_eq_some.1 hn
      exact ran_of_respond h (.inl ⟨rfl, hpos, hle⟩)
    · obtain rfl := csrOfNumber_eq_some.1 hrounds
      exact ran_of_respond h (.inr rfl)

/-- MIX and the length instruction fail in one of their two checks, or do the mixing step. -/
theorem ran_of_tryMix {s t : State} {v : Half} {i : Instr} (hi : i = .mix v ∨ i = .len v)
    (h : exec i s = .next t) : Ran i s t := by
  obtain rfl | rfl := hi
  · simp only [exec, execMix] at h
    split at h
    · exact ran_of_raise h
    · rename_i p hp
      obtain ⟨hlen, hskip, rfl⟩ := tryMix_eq_ok.1 hp
      exact ran_of_respond h ⟨hlen, hskip⟩
  · simp only [exec, execLen] at h
    split at h
    · exact ran_of_raise h
    · rename_i p hp
      obtain ⟨hlen, hskip, rfl⟩ := tryMix_eq_ok.1 hp
      cases h
      exact .passed ⟨hlen, hskip⟩ s.rsp rfl

/-- What an instruction can do, said once for all of them. -/
theorem ran_of_exec {i : Instr} {s t : State} (h : exec i s = .next t) : Ran i s t := by
  cases i with
  | clrerr | reset | seedclr | lclr | derive | deriver _ | init | dclr | hexenc | xclr | gclr | count | hash
  | rowgen => exact ran_of_respond h trivial
  | csrr _ | seedget _ | lget _ | sget _ | dget _ | xget _ | bget _ | gwget _ =>
    exact ran_of_respondCell h trivial rfl
  | csrw _ _ => exact ran_of_csrw h
  | seedpush imm => exact ran_of_pushByte (exec_seedpush imm s ▸ h) id rfl
  | dpush imm => exact ran_of_pushByte (exec_dpush imm s ▸ h) id rfl
  | xpush imm => exact ran_of_pushByte (exec_xpush imm s ▸ h) id rfl
  | mix v => exact ran_of_tryMix (.inl rfl) h
  | len v => exact ran_of_tryMix (.inr rfl) h
  | lpush imm =>
    by_cases hroom : s.lens.length < 256
    · exact ran_of_respond (exec_lpush_of_room hroom ▸ h) hroom
    · exact ran_of_raise (exec_lpush_of_full (not_lt.1 hroom) ▸ h)
  | gpush =>
    by_cases hroom : s.grid.length < 128
    · exact ran_of_respond (exec_gpush_of_room hroom ▸ h) hroom
    · exact ran_of_raise (exec_gpush_of_full (not_lt.1 hroom) ▸ h)
  | run =>
    simp only [exec, execRun] at h
    split at h
    · exact ran_of_respond h trivial
    · split at h
      · exact ran_of_raise h
      · exact ran_of_respond h trivial
  | dense =>
    simp only [exec, execDense] at h
    split at h
    · exact ran_of_raise h
    · exact ran_of_respond h trivial
  | hexdec =>
    simp only [exec, execHexdec] at h
    split at h
    · exact ran_of_raise h
    · exact ran_of_respond h trivial
  | gget idx imm =>
    simp only [exec, execGget] at h
    split at h
    · exact ran_of_raise h
    · exact ran_of_respondCell h trivial rfl
  | region =>
    simp only [exec, execRegion] at h
    split at h
    · exact ran_of_raise h
    · exact ran_of_respond h ‹_›

/-! ### What the execute phase leaves unchanged -/

/-- What one row of ROWGEN leaves unchanged, all its rows leave unchanged. -/
theorem makeRows_unchanged {α : Type} {part : State → α} (hrow : ∀ s r, part (makeRow s r) = part s)
    (rows : List Nat) (s : State) : part (makeRows rows s) = part s := by
  induction rows generalizing s with
  | nil => rfl
  | cons r rows ih => exact (ih (makeRow s r)).trans (hrow s r)

@[simp] theorem makeRows_seed (rows : List Nat) (s : State) : (makeRows rows s).seed = s.seed :=
  makeRows_unchanged (part := State.seed) (fun _ _ => rfl) rows s
@[simp] theorem makeRows_ucnt (rows : List Nat) (s : State) : (makeRows rows s).ucnt = s.ucnt :=
  makeRows_unchanged (part := State.ucnt) (fun _ _ => rfl) rows s
@[simp] theorem makeRows_rcnt (rows : List Nat) (s : State) : (makeRows rows s).rcnt = s.rcnt :=
  makeRows_unchanged (part := State.rcnt) (fun _ _ => rfl) rows s
@[simp] theorem makeRows_err (rows : List Nat) (s : State) : (makeRows rows s).err = s.err :=
  makeRows_unchanged (part := State.err) (fun _ _ => rfl) rows s
@[simp] theorem makeRows_errInfo (rows : List Nat) (s : State) : (makeRows rows s).errInfo = s.errInfo :=
  makeRows_unchanged (part := State.errInfo) (fun _ _ => rfl) rows s
@[simp] theorem makeRows_pending (rows : List Nat) (s : State) : (makeRows rows s).pending = s.pending :=
  makeRows_unchanged (part := State.pending) (fun _ _ => rfl) rows s

/-- No execute phase touches the moves the host has yet to make (log entry 1). -/
theorem executed_pending (i : Instr) (s : State) : (executed i s).pending = s.pending := by
  cases i with
  | csrw idx imm =>
    simp only [executed]
    split <;> rfl
  | rowgen => exact makeRows_pending _ _
  | _ => rfl

/-- The execute phase of every instruction but CLRERR and RESET leaves the capture (R216). -/
theorem executed_capture {i : Instr} (hclrerr : i ≠ .clrerr) (hreset : i ≠ .reset) (s : State) :
    (executed i s).err = s.err ∧ (executed i s).errInfo = s.errInfo := by
  cases i with
  | clrerr => exact absurd rfl hclrerr
  | reset => exact absurd rfl hreset
  | csrw idx imm =>
    simp only [executed]
    split <;> exact ⟨rfl, rfl⟩
  | rowgen => exact ⟨makeRows_err _ _, makeRows_errInfo _ _⟩
  | _ => exact ⟨rfl, rfl⟩

/-- No instruction touches the moves the host has yet to make. -/
theorem pending_of_exec {i : Instr} {s t : State} (h : exec i s = .next t) : t.pending = s.pending := by
  obtain ⟨e, info, rfl⟩ | ⟨-, rsp, rfl⟩ := ran_of_exec h
  · rfl
  · exact executed_pending i s

end Sys2Proof.Machine

namespace Sys2Proof.Proofs

open Sys2Proof Sys2Proof.Machine Sys2Proof.Certificates

/-- Settles O55: a failure changes the capture alone; the execute phase of each instruction is read off field
by field. -/
theorem onlyTheListedInstructionsWrite : Obligations.OnlyTheListedInstructionsWrite := by
  intro i s t h
  have hpending := pending_of_exec h
  obtain ⟨e, info, rfl⟩ | ⟨hpasses, rsp, rfl⟩ := ran_of_exec h
  case failed => simp
  case passed =>
    cases i with
    | csrw idx imm =>
      obtain ⟨rfl, -, -⟩ | rfl := hpasses <;> simp [executed]
    | rowgen => simp [executed]
    | hash => simp [executed, hashLengths]
    | _ => simp [executed]

end Sys2Proof.Proofs
end

section
/-! PROOF. INIT, MIX and the length instruction on their own (40_sparse_mixer.md R100 to R102, 30_encoding.md
R88). -/

namespace Sys2Proof.Machine

/-- The length instruction leaves the mixed sparse state where the checks pass, without a response (R88). -/
theorem exec_len_of_ok {s : State} {v : Half} {p : Sparse} (h : tryMix s.n.toNat s.sparse v = .ok p) :
    exec (.len v) s = .next { s with sparse := p } := by
  simp only [exec, execLen, h]

/-- MIX fails as its checks do (R102). -/
theorem failsWith_mix {s : State} {v : Half} {e : Error} (h : tryMix s.n.toNat s.sparse v = .error e) :
    FailsWith (.mix v) s (errorCode e) (mixInfo v e) :=
  failsWith_of_raise (by simp only [exec, execMix, h])

/-- The length instruction fails as its checks do, with its value as info (log entry 4). -/
theorem failsWith_len {s : State} {v : Half} {e : Error} (h : tryMix s.n.toNat s.sparse v = .error e) :
    FailsWith (.len v) s (errorCode e) (v.setWidth 32) :=
  failsWith_of_raise (by simp only [exec, execLen, h])

end Sys2Proof.Machine

namespace Sys2Proof.Proofs

open Sys2Proof Sys2Proof.Machine Sys2Proof.Certificates

/-- Settles O28: INIT leaves the fresh sparse state of length `N`. -/
theorem initGivesTheIdentity : Obligations.InitGivesTheIdentity :=
  ⟨operandsMustBeZero_of_z (c := .init) rfl, fun s =>
    ⟨freshSparse s.n.toNat, answers_of_respond rfl, length_freshSparse _, fun _ hj => freshSparse_getElem? hj,
      rfl, rfl⟩⟩

/-- Settles O30: the checks of R102 pass, and `mixStep` is the step of R101. -/
theorem lengthInstructionDoesTheMixingStep : Obligations.LengthInstructionDoesTheMixingStep := by
  intro s v hs hlen hskip
  have hroom : s.sparse.skip.toNat ≠ Config.skipMax := hskip.ne
  exact ⟨_, exec_len_of_ok (tryMix_eq_ok.2 ⟨hlen, hroom, rfl⟩), isMixStep_mixStep hs.sparse hlen hskip⟩

/-- Settles O31: the two failures of `tryMix`, in its order. -/
theorem lengthIsCheckedBeforeTheSkipSize : Obligations.LengthIsCheckedBeforeTheSkipSize := by
  intro s len
  rw [BitVec.ofNat_toNat]
  refine ⟨fun hlong => ?tooLong, fun hlen hskip => ?noRoom⟩
  case tooLong =>
    have hcheck : tryMix s.n.toNat s.sparse len = .error .invalidLength :=
      tryMix_eq_error.2 (.inl ⟨hlong, rfl⟩)
    exact ⟨failsWith_mix hcheck, failsWith_len hcheck⟩
  case noRoom =>
    have hcheck : tryMix s.n.toNat s.sparse len = .error .skipOverflow :=
      tryMix_eq_error.2 (.inr ⟨hlen, hskip, rfl⟩)
    exact ⟨failsWith_mix hcheck, failsWith_len hcheck⟩

end Sys2Proof.Proofs
end

section
/-! PROOF. RUN (41_round_runner.md R130, R131): its check phase, its execute phase as one pass over the
repeated list, where the cursor ends, and the rotating machine of 40_sparse_mixer.md R104. -/

namespace Sys2Proof.Machine

open Sys2Proof.Certificates

/-! ### The check phase -/

/-- The first element of a list with a property is found with its index. -/
theorem find?_zipIdx_eq_some {α : Type} {l : List α} {p : α → Bool} {i : Nat} {a : α} (ha : l[i]? = some a)
    (hp : p a = true) (hbefore : ∀ j < i, ∀ b, l[j]? = some b → p b = false) :
    l.zipIdx.find? (fun e => p e.1) = some (a, i) := by
  obtain ⟨hi, rfl⟩ := List.getElem?_eq_some_iff.1 ha
  refine List.find?_eq_some_iff_getElem.2 ⟨hp, i, by rwa [List.length_zipIdx], by simp, fun j hj => ?_⟩
  have hj' : l[j]? = some l[j] := List.getElem?_eq_getElem (hj.trans hi)
  simpa using hbefore j hj _ hj'

/-- A number above a field: the two stand in one number. -/
theorem ofNat_append {m k : Nat} (a : Nat) (v : BitVec k) :
    BitVec.ofNat m a ++ v = BitVec.ofNat (m + k) (a * 2 ^ k + v.toNat) := by
  apply BitVec.eq_of_toNat_eq
  rw [BitVec.toNat_append, BitVec.toNat_ofNat, BitVec.toNat_ofNat, ← Nat.shiftLeft_add_eq_or_of_lt v.isLt,
    Nat.shiftLeft_eq, Nat.add_comm m k, Nat.pow_add, Nat.mod_mul, Nat.mul_comm a, Nat.mul_add_mod,
    Nat.mod_eq_of_lt v.isLt, Nat.mul_add_div (Nat.two_pow_pos k), Nat.div_eq_of_lt v.isLt, Nat.add_zero,
    Nat.mul_comm, Nat.add_comm]

/-- The check phase of RUN passes: there is no round to make, or no entry exceeds `N` (R130). -/
def RunPasses (s : State) : Prop := s.rounds = 0 ∨ ∀ v ∈ s.lens, v.toNat ≤ s.n.toNat

/-- A RUN that passes its check phase responds from its execute phase (R130). -/
theorem exec_run_of_passes {s : State} (h : RunPasses s) : exec .run s = respond 0 (runList s) := by
  obtain hrounds | hlens := h
  · exact if_pos hrounds
  · exact execRun_of_passed (firstOverlong_eq_none.2 hlens)

/-- RUN with a round to make fails on the first entry above `N` (R130). -/
theorem exec_run_of_overlong {s : State} {e : Half × Nat} (hrounds : s.rounds ≠ 0)
    (h : firstOverlong s.n.toNat s.lens = some e) : exec .run s = raise .invalidLength (runInfo e) s := by
  simp only [exec, execRun, if_neg hrounds, h]

/-! ### The execute phase -/

/-- The lengths a RUN goes through: the list, once for each round. -/
def runEntries (s : State) : List Half := (List.replicate s.rounds.toNat s.lens).flatten

/-- All rounds are one pass over the repeated list. -/
theorem applyRounds_eq_foldl (n : Nat) (lens : List Half) (k : Nat) (p : Sparse) :
    applyRounds n lens k p = (List.replicate k lens).flatten.foldl (mixStep n) p := by
  induction k generalizing p with
  | zero => rfl
  | succ k ih =>
    rw [applyRounds, ih, List.replicate_succ, List.flatten_cons, List.foldl_append, applyList]

/-- The execute phase of RUN mixes every entry into the fresh sparse state (R130). -/
theorem runList_eq (s : State) :
    runList s =
      { s with sparse := (runEntries s).foldl (mixStep s.n.toNat) (freshSparse s.n.toNat) } := by
  rw [runList, applyRounds_eq_foldl, runEntries]

theorem length_runEntries (s : State) : (runEntries s).length = s.rounds.toNat * s.lens.length := by
  simp [runEntries]

theorem sum_runEntries (s : State) :
    ((runEntries s).map BitVec.toNat).sum = s.rounds.toNat * (s.lens.map BitVec.toNat).sum := by
  simp [runEntries, List.map_flatten, List.sum_flatten]

/-- Where RUN passes its check phase, every length it goes through is at most `N`. -/
theorem le_of_mem_runEntries {s : State} (h : RunPasses s) {v : Half} (hv : v ∈ runEntries s) :
    v.toNat ≤ s.n.toNat := by
  obtain hrounds | hlens := h
  · simp [runEntries, hrounds] at hv
  · obtain ⟨l, hl, hvl⟩ := List.mem_flatten.1 hv
    rw [List.eq_of_mem_replicate hl] at hvl
    exact hlens v hvl

theorem toNat_skip_freshSparse (n : Nat) : (freshSparse n).skip.toNat = 0 := rfl

theorem toNat_pos_freshSparse (n : Nat) : (freshSparse n).pos.toNat = 0 := rfl

/-- A RUN in a canonical state goes through too few lengths to fill the skip size: 65535 rounds of 256
entries. -/
theorem length_runEntries_lt {s : State} (h : Memory.wf s = true) : (runEntries s).length < 2 ^ 32 - 1 := by
  obtain ⟨-, hlens, -⟩ := (Memory.wf_iff s).1 h
  have hrounds : s.rounds.toNat ≤ 65535 := Nat.le_of_lt_succ s.rounds.isLt
  rw [length_runEntries]
  calc s.rounds.toNat * s.lens.length ≤ 65535 * 256 := Nat.mul_le_mul hrounds hlens
    _ < 2 ^ 32 - 1 := by decide

/-- So from the fresh sparse state on there is room in the skip size for all of them. -/
theorem skip_freshSparse_add_runEntries_le {s : State} (h : Memory.wf s = true) (n : Nat) :
    (freshSparse n).skip.toNat + (runEntries s).length ≤ 2 ^ 32 - 1 := by
  have hroom := length_runEntries_lt h
  rw [toNat_skip_freshSparse, Nat.zero_add]
  exact hroom.le

/-! ### The lengths one instruction after another -/

/-- Instructions that each mix one length, one after another, mix the whole list: the skip size has room for
all of them. -/
theorem execAll_lengths {op : Half → Instr}
    (hop : ∀ (v : Half) (s : State) (p : Sparse), tryMix s.n.toNat s.sparse v = .ok p →
      exec (op v) (answered 0 s) = .next (answered 0 { s with sparse := p }))
    (l : List Half) (s : State) (hlens : ∀ v ∈ l, v.toNat ≤ s.n.toNat)
    (hskip : s.sparse.skip.toNat + l.length ≤ 2 ^ 32 - 1) :
    execAll (l.map op) (answered 0 s) =
      .next (answered 0 { s with sparse := l.foldl (mixStep s.n.toNat) s.sparse }) := by
  induction l generalizing s with
  | nil => rfl
  | cons v l ih =>
    rw [List.length_cons] at hskip
    have hroom : s.sparse.skip.toNat ≠ Config.skipMax := by
      rw [Config.skipMax]
      omega
    have hmix := tryMix_eq_ok.2 ⟨hlens v List.mem_cons_self, hroom, rfl⟩
    rw [List.map_cons, execAll_cons (hop v s _ hmix)]
    refine ih { s with sparse := mixStep s.n.toNat s.sparse v }
      (fun u hu => hlens u (List.mem_cons_of_mem _ hu)) ?_
    rw [toNat_skip_mixStep (by omega)]
    omega

/-- INIT and then an instruction for each length do what RUN does, where RUN passes its check phase. -/
theorem exec_run_eq_execAll {op : Half → Instr}
    (hop : ∀ (v : Half) (s : State) (p : Sparse), tryMix s.n.toNat s.sparse v = .ok p →
      exec (op v) (answered 0 s) = .next (answered 0 { s with sparse := p }))
    {s : State} (hs : Memory.wf s = true) (hpasses : RunPasses s) :
    exec .run s = execAll (.init :: (runEntries s).map op) s := by
  have hinit : exec .init s = .next (answered 0 { s with sparse := freshSparse s.n.toNat }) := rfl
  rw [execAll_cons hinit, exec_run_of_passes hpasses, runList_eq]
  exact (execAll_lengths hop (runEntries s) { s with sparse := freshSparse s.n.toNat }
    (fun _ hv => le_of_mem_runEntries hpasses hv) (skip_freshSparse_add_runEntries_le hs s.n.toNat)).symm

/-! ### Where the cursor ends -/

/-- The fresh sparse state is legal (R24, R100). -/
theorem sparseLegal_freshSparse {n : Nat} (hpos : 1 ≤ n) (hle : n ≤ 256) : SparseLegal n (freshSparse n) := by
  refine ⟨hpos, hle, ?perm, hpos⟩
  have hcells : (freshSparse n).cells.map BitVec.toNat = List.range n := by
    rw [freshSparse, List.map_map]
    refine (List.map_congr_left fun j hj => ?_).trans (List.map_id _)
    have hj := List.mem_range.1 hj
    exact (BitVec.toNat_ofNat j 8).trans (Nat.mod_eq_of_lt (by omega))
  rw [hcells]

/-- The mixing step keeps a sparse state legal: it moves cells and takes the cursor mod `N` (R103). -/
theorem sparseLegal_mixStep {n : Nat} {p : Sparse} (h : SparseLegal n p) (len : Half) :
    SparseLegal n (mixStep n p len) where
  length_pos := h.length_pos
  length_le := h.length_le
  perm := ((perm_reverseFrom _ _ _).map _).trans h.perm
  pos_lt := by
    rw [toNat_pos_mixStep h]
    exact Nat.mod_lt _ h.length_pos

/-- So does any number of mixing steps. -/
theorem sparseLegal_foldl_mixStep {n : Nat} {p : Sparse} (h : SparseLegal n p) (l : List Half) :
    SparseLegal n (l.foldl (mixStep n) p) := by
  induction l generalizing p with
  | nil => exact h
  | cons v l ih => exact ih (sparseLegal_mixStep h v)

/-- Each mixing step counts one in the skip size. -/
theorem toNat_skip_foldl_mixStep {n : Nat} {p : Sparse} (l : List Half)
    (hskip : p.skip.toNat + l.length ≤ 2 ^ 32 - 1) :
    (l.foldl (mixStep n) p).skip.toNat = p.skip.toNat + l.length := by
  induction l generalizing p with
  | nil => rfl
  | cons v l ih =>
    rw [List.length_cons] at hskip
    have hstep := toNat_skip_mixStep (by omega : p.skip.toNat < 2 ^ 32 - 1) n v
    rw [List.foldl_cons, ih (by omega), hstep, List.length_cons]
    omega

/-- The cursor goes forward by all the lengths and by all the skip sizes on the way, whose sum is a triangular
number above the first (R131 item 4). -/
theorem toNat_pos_foldl_mixStep {n : Nat} {p : Sparse} (h : SparseLegal n p) (l : List Half)
    (hskip : p.skip.toNat + l.length ≤ 2 ^ 32 - 1) :
    (l.foldl (mixStep n) p).pos.toNat =
      (p.pos.toNat + (l.map BitVec.toNat).sum + p.skip.toNat * l.length
        + l.length * (l.length - 1) / 2) % n := by
  induction l generalizing p with
  | nil => simp [Nat.mod_eq_of_lt h.pos_lt]
  | cons v l ih =>
    rw [List.length_cons] at hskip
    have hskip' := toNat_skip_mixStep (by omega : p.skip.toNat < 2 ^ 32 - 1) n v
    have htriangle := Nat.triangle_succ l.length
    rw [List.foldl_cons, ih (sparseLegal_mixStep h v) (by omega), toNat_pos_mixStep h, hskip', List.map_cons,
      List.sum_cons, List.length_cons, htriangle, Nat.add_assoc, Nat.add_assoc, Nat.mod_add_mod]
    congr 1
    ring

/-! ### The rotating machine -/

/-- Turning a list by an amount below its length is its rotation. -/
theorem rotl_eq_rotate {α : Type} {k : Nat} {l : List α} (h : k ≤ l.length) : rotl k l = l.rotate k :=
  (List.rotate_eq_drop_append_take h).symm

/-- The document's turn to the left is the rotation of Mathlib. -/
theorem rotateLeft_eq_rotate {α : Type} (l : List α) (k : Nat) : l.rotateLeft k = l.rotate k := by
  match l with
  | [] => simp [List.rotateLeft]
  | [a] => simp [List.rotateLeft]
  | a :: b :: l =>
    rw [List.rotateLeft, if_neg (by simp), List.rotate_eq_drop_append_take_mod]

/-- The rotating machine stands for the sparse state: its backing array is the cells turned so that the cursor
is at position 0, which is what the total shift says (R104). -/
structure Turned (n : Nat) (p : Sparse) (m : Rotating) : Prop where
  backing_eq : m.backing = p.cells.rotate p.pos.toNat
  pos_eq : p.pos.toNat = m.shift % n
  skip_eq : p.skip.toNat = m.skip

/-- Both machines start from the identity. -/
theorem turned_start (n : Nat) : Turned n (freshSparse n) (Rotating.start n) :=
  ⟨(List.rotate_zero _).symm, (Nat.zero_mod n).symm, rfl⟩

/-- The cells after a mixing step, turned to the new cursor: the reversed backing array, turned by the length
and the old skip size. -/
theorem rotate_cells_mixStep {n : Nat} {p : Sparse} (h : SparseLegal n p) (len : Half) :
    (mixStep n p len).cells.rotate (mixStep n p len).pos.toNat =
      (((p.cells.rotate p.pos.toNat).take len.toNat).reverse
        ++ (p.cells.rotate p.pos.toNat).drop len.toNat).rotate ((len.toNat + p.skip.toNat) % n) := by
  have hcells := h.length_cells
  have hpos := h.pos_lt
  set view := p.cells.rotate p.pos.toNat with hview
  have hlen : ((view.take len.toNat).reverse ++ view.drop len.toNat).length = n := by
    simp [hview, hcells]
    omega
  have hmix : (mixStep n p len).cells =
      ((view.take len.toNat).reverse ++ view.drop len.toNat).rotate (n - p.pos.toNat) := by
    rw [mixStep, reverseFrom, rotl_eq_rotate (l := p.cells) (by omega), ← hview, hcells,
      rotl_eq_rotate (by omega)]
  have hturn : (n - p.pos.toNat + (p.pos.toNat + len.toNat + p.skip.toNat) % n) % n
      = (len.toNat + p.skip.toNat) % n := by
    rw [Nat.add_mod_mod, show n - p.pos.toNat + (p.pos.toNat + len.toNat + p.skip.toNat)
      = len.toNat + p.skip.toNat + n by omega, Nat.add_mod_right]
  rw [hmix, List.rotate_rotate, toNat_pos_mixStep h, ← List.rotate_mod, hlen, hturn]

/-- A mixing step of the sparse state is a step of the rotating machine. -/
theorem Turned.mix {n : Nat} {p : Sparse} {m : Rotating} (h : Turned n p m) (hp : SparseLegal n p)
    (hskip : p.skip.toNat < 2 ^ 32 - 1) (len : Half) :
    Turned n (mixStep n p len) (Rotating.mix n m len) where
  backing_eq := by
    rw [rotate_cells_mixStep hp, Rotating.mix, rotateLeft_eq_rotate, h.backing_eq, h.skip_eq]
  pos_eq := by
    rw [toNat_pos_mixStep hp, Rotating.mix, Nat.add_mod_mod, ← h.skip_eq, Nat.add_assoc, h.pos_eq,
      Nat.mod_add_mod]
  skip_eq := by rw [toNat_skip_mixStep hskip, h.skip_eq, Rotating.mix]

/-- So is a whole list of lengths. -/
theorem Turned.foldl_mix {n : Nat} {p : Sparse} {m : Rotating} (h : Turned n p m) (hp : SparseLegal n p)
    (l : List Half) (hskip : p.skip.toNat + l.length ≤ 2 ^ 32 - 1) :
    Turned n (l.foldl (mixStep n) p) (l.foldl (Rotating.mix n) m) := by
  induction l generalizing p m with
  | nil => exact h
  | cons v l ih =>
    rw [List.length_cons] at hskip
    have hroom : p.skip.toNat < 2 ^ 32 - 1 := by omega
    refine ih (h.mix hp hroom v) (sparseLegal_mixStep hp v) ?_
    rw [toNat_skip_mixStep hroom]
    omega

/-- The cells are the backing array turned back by the total shift. -/
theorem Turned.cells_getElem? {n : Nat} {p : Sparse} {m : Rotating} (h : Turned n p m) (hp : SparseLegal n p)
    {j : Nat} (hj : j < n) : p.cells[j]? = m.backing[(j + n - m.shift % n) % n]? := by
  have hcells := hp.length_cells
  have hpos := hp.pos_lt
  have hback : ((j + n - p.pos.toNat) % n + p.pos.toNat) % n = j := by
    rw [Nat.mod_add_mod, show j + n - p.pos.toNat + p.pos.toNat = j + n by omega, Nat.add_mod_right,
      Nat.mod_eq_of_lt hj]
  have hplace : (j + n - p.pos.toNat) % n < p.cells.length := hcells.symm ▸ Nat.mod_lt _ hp.length_pos
  rw [h.backing_eq, ← h.pos_eq, List.getElem?_rotate hplace, hcells, hback]

end Sys2Proof.Machine

namespace Sys2Proof.Proofs

open Sys2Proof Sys2Proof.Machine Sys2Proof.Certificates

/-- Settles O33: the check phase finds entry `i`, and the info holds it with its index. -/
theorem runRefusesTheFirstOverlongEntry : Obligations.RunRefusesTheFirstOverlongEntry := by
  intro s i v _ hrounds hv hlong hbefore
  have hfound : firstOverlong s.n.toNat s.lens = some (v, i) :=
    find?_zipIdx_eq_some (p := fun u : Half => decide (s.n.toNat < u.toNat)) hv (decide_eq_true hlong)
      fun j hj u hu => decide_eq_false (not_lt.2 (hbefore j hj u hu))
  have hrounds' : s.rounds ≠ 0 := by
    rintro h
    rw [h] at hrounds
    exact absurd hrounds (by decide)
  have hinfo : runInfo (v, i) = BitVec.ofNat 32 (i * 65536 + v.toNat) := ofNat_append i v
  rw [← hinfo]
  exact failsWith_of_raise (exec_run_of_overlong hrounds' hfound)

/-- Settles O34: RUN is one pass over the repeated list, and so are the commands and the length
instructions. -/
theorem runIsInitThenEachLength : Obligations.RunIsInitThenEachLength := by
  intro s hs hpasses
  exact ⟨exec_run_eq_execAll (fun _ _ _ h => answers_mix h) hs.spaces hpasses,
    exec_run_eq_execAll (fun _ _ _ h => exec_len_of_ok h) hs.spaces hpasses⟩

/-- Settles O35: the sums over the repeated list, from a cursor and a skip size of 0. -/
theorem runEndsAtTheSummedCursor : Obligations.RunEndsAtTheSummedCursor := by
  intro s hs hpasses
  have hroom := skip_freshSparse_add_runEntries_le hs.spaces s.n.toNat
  have hfresh := sparseLegal_freshSparse hs.sparse.length_pos hs.sparse.length_le
  have hskip := toNat_skip_foldl_mixStep (n := s.n.toNat) _ hroom
  have hpos := toNat_pos_foldl_mixStep hfresh _ hroom
  rw [toNat_skip_freshSparse, Nat.zero_add] at hskip
  rw [toNat_skip_freshSparse, toNat_pos_freshSparse, Nat.zero_mul, Nat.zero_add, Nat.add_zero, ← hskip,
    sum_runEntries] at hpos
  refine ⟨_, answers_of_respond ((exec_run_of_passes hpasses).trans (by rw [runList_eq])), ?_, hpos⟩
  rw [hskip, length_runEntries]

/-- Settles O36: there is no entry to go through. -/
theorem runWithoutLengthsOnlyInitialises : Obligations.RunWithoutLengthsOnlyInitialises := by
  intro s h
  have hpasses : RunPasses s := h.imp_right fun hnil => by simp [hnil]
  have hentries : runEntries s = [] := by
    obtain hrounds | hnil := h
    · simp [runEntries, hrounds]
    · simp [runEntries, hnil]
  rw [exec_run_of_passes hpasses, runList_eq, hentries]
  rfl

/-- Settles O37: the rotating machine stands for the sparse state at the start and after each length. -/
theorem runAgreesWithTheRotatingMachine : Obligations.RunAgreesWithTheRotatingMachine := by
  intro s t hs hpasses ht n m
  have hfresh : SparseLegal n (freshSparse n) :=
    sparseLegal_freshSparse hs.sparse.length_pos hs.sparse.length_le
  have hturned : Turned n ((runEntries s).foldl (mixStep n) (freshSparse n)) m :=
    (turned_start n).foldl_mix hfresh _ (skip_freshSparse_add_runEntries_le hs.spaces n)
  have hlegal := sparseLegal_foldl_mixStep hfresh (runEntries s)
  rw [exec_run_of_passes hpasses, runList_eq] at ht
  obtain rfl := respond_eq_next ht
  exact ⟨hturned.pos_eq, hturned.skip_eq, hlegal.length_cells, fun _ hj => hturned.cells_getElem? hlegal hj⟩

end Sys2Proof.Proofs
end

section
/-! PROOF. The step: an assertion of `RST` (70_reset_and_hazards.md R240), the idle step, and what every command
word comes to (00_scope.md R12, 60_exceptions.md R216), one after another in a run. -/

namespace Sys2Proof.Machine

open Sys2Proof.Certificates

/-- An assertion of `RST` leaves the reset state with the moves that are still to come (R240). -/
theorem step_of_rst {s : State} {rest : List HostMove} (hp : s.pending = .rst :: rest) :
    step s = .next (resetEngine { s with pending := rest }) := by
  have htake : takeMove s = some (.rst, { s with pending := rest }) := takeMove_eq_some.2 ⟨rest, hp, rfl⟩
  simp only [step, htake]
  rfl

/-- With no move pending the step changes nothing (R230). -/
theorem step_of_idle {s : State} (hp : s.pending = []) : step s = .next s := by
  have htake : takeMove s = none := by
    unfold takeMove
    rw [hp]
  simp only [step, htake]
  rfl

/-- No failure has the status of success. -/
theorem errorCode_ne_success (e : Error) : errorCode e ≠ 0x00 := by
  cases e <;> decide

/-- Every command word is answered with a next state: the move is taken, and the status is 0x00 or that of an
error. -/
theorem step_of_command {s : State} {w : Word} {rest : List HostMove} (hp : s.pending = .command w :: rest) :
    ∃ t, step s = .next t ∧ t.pending = rest ∧
      ((∃ data, t.rsp = some ⟨0x00, data⟩) ∨ ∃ e info, t = failed e info { s with pending := rest }) := by
  have hpending : ∀ t, step s = .next t → t.pending = rest := by
    intro t ht
    cases hd : decode (.command w) with
    | ok i =>
      rw [step_of_decode_ok hp hd] at ht
      exact pending_of_exec ht
    | error e =>
      rw [step_of_decode_error hp hd] at ht
      cases ht
      rfl
  have houtcome := commandOutcome_step hp
  generalize hr : step s = r at houtcome hpending
  cases houtcome with
  | responds data t => exact ⟨_, rfl, hpending _ rfl, .inl ⟨data, rfl⟩⟩
  | raises e info => exact ⟨_, rfl, hpending _ rfl, .inr ⟨e, info, rfl⟩⟩

/-- Every step answers a next state (R250). -/
theorem exists_step (s : State) : ∃ t, step s = .next t := by
  cases hp : s.pending with
  | nil => exact ⟨s, step_of_idle hp⟩
  | cons m rest =>
    cases m with
    | rst => exact ⟨_, step_of_rst hp⟩
    | command w =>
      obtain ⟨t, ht, -⟩ := step_of_command hp
      exact ⟨t, ht⟩

/-- A run takes its first step and then the others. -/
theorem run_succ {s u : State} (h : step s = .next u) (k : Nat) :
    Sys2Proof.core.run (k + 1) s = Sys2Proof.core.run k u := by
  have hcore : Sys2Proof.core.step s = .next u := h
  simp only [Host.Core.run, hcore]

/-! ### The capture -/

/-- The word of CLRERR is the only one that decodes to it. -/
theorem ne_clrerr_of_decode {w : Word} {i : Instr} (h : decode (.command w) = .ok i) (hw : w ≠ 0x03000000) :
    i ≠ .clrerr := by
  rintro rfl
  exact hw (Code.command.inj (encode_of_decode_command h)).symm

/-- The word of RESET is the only one that decodes to it. -/
theorem ne_reset_of_decode {w : Word} {i : Instr} (h : decode (.command w) = .ok i) (hw : w ≠ 0x04000000) :
    i ≠ .reset := by
  rintro rfl
  exact hw (Code.command.inj (encode_of_decode_command h)).symm

/-- A successful instruction other than CLRERR and RESET leaves the capture (R216). -/
theorem capture_of_exec {i : Instr} {s t : State} {data : Word} (h : exec i s = .next t)
    (hrsp : t.rsp = some ⟨0x00, data⟩) (hclrerr : i ≠ .clrerr) (hreset : i ≠ .reset) :
    t.err = s.err ∧ t.errInfo = s.errInfo := by
  obtain ⟨e, info, rfl⟩ | ⟨-, rsp, rfl⟩ := ran_of_exec h
  case failed =>
    rw [failed_rsp, Option.some.injEq, Response.mk.injEq] at hrsp
    exact absurd hrsp.1 (errorCode_ne_success e)
  case passed => exact executed_capture hclrerr hreset s

/-- So does a successful command word (R216). -/
theorem capture_of_step {s t : State} {w : Word} {rest : List HostMove} {data : Word}
    (hp : s.pending = .command w :: rest) (hstep : step s = .next t) (hrsp : t.rsp = some ⟨0x00, data⟩)
    (hclrerr : w ≠ 0x03000000) (hreset : w ≠ 0x04000000) : t.err = s.err ∧ t.errInfo = s.errInfo := by
  cases hd : decode (.command w) with
  | ok i =>
    rw [step_of_decode_ok hp hd] at hstep
    exact capture_of_exec (s := { s with pending := rest }) hstep hrsp (ne_clrerr_of_decode hd hclrerr)
      (ne_reset_of_decode hd hreset)
  | error e =>
    rw [step_of_decode_error hp hd] at hstep
    cases hstep
    cases hrsp

/-- After a failure something is captured, now or from before (R38, R215). -/
theorem err_failed_ne_zero (e : Error) (info : Word) (s : State) : (failed e info s).err ≠ 0 := by
  rw [failed_err]
  split
  · exact errorCode_ne_success e
  · assumption

/-! ### Runs of commands -/

/-- The state's next moves are these command words, CLRERR and RESET not among them. -/
structure Facing (ws : List Word) (s : State) : Prop where
  pending_eq : s.pending = ws.map .command
  keeps : ∀ w ∈ ws, w ≠ 0x03000000 ∧ w ≠ 0x04000000

/-- The status of the last response is 0x00. -/
def Succeeded (s : State) : Prop := ∃ data, s.rsp = some ⟨0x00, data⟩

/-- The first of the words succeeds and leaves `ERR`, or fails and leaves `ERR` other than 0; the others are
still to come. -/
theorem Facing.step {w : Word} {ws : List Word} {s : State} (h : Facing (w :: ws) s) :
    ∃ t, step s = .next t ∧ Facing ws t ∧
      ((Succeeded t ∧ t.err = s.err) ∨ (¬ Succeeded t ∧ t.err ≠ 0)) := by
  obtain ⟨hclrerr, hreset⟩ := h.keeps w List.mem_cons_self
  have hp : s.pending = .command w :: ws.map .command := h.pending_eq
  obtain ⟨t, ht, hpending, hout⟩ := step_of_command hp
  refine ⟨t, ht, ⟨hpending, fun v hv => h.keeps v (List.mem_cons_of_mem _ hv)⟩, ?_⟩
  obtain ⟨data, hrsp⟩ | ⟨e, info, rfl⟩ := hout
  · exact .inl ⟨⟨data, hrsp⟩, (capture_of_step hp ht hrsp hclrerr hreset).1⟩
  · refine .inr ⟨?_, err_failed_ne_zero e info _⟩
    rintro ⟨data, hrsp⟩
    rw [failed_rsp, Option.some.injEq, Response.mk.injEq] at hrsp
    exact errorCode_ne_success e hrsp.1

/-- A captured error stays captured throughout such a run. -/
theorem Facing.err_stays {ws : List Word} {s t : State} (h : Facing ws s) (herr : s.err ≠ 0)
    (hrun : Sys2Proof.core.run ws.length s = .next t) : t.err ≠ 0 := by
  induction ws generalizing s with
  | nil =>
    cases hrun
    exact herr
  | cons w ws ih =>
    obtain ⟨u, hu, hfacing, hout⟩ := h.step
    rw [List.length_cons, run_succ hu] at hrun
    refine ih hfacing ?_ hrun
    obtain ⟨-, hsame⟩ | ⟨-, hne⟩ := hout
    · rwa [hsame]
    · exact hne

/-- In such a run from `ERR` = 0, `ERR` stays 0 exactly if every response on the way is a success. -/
theorem Facing.err_eq_zero_iff {ws : List Word} {s t : State} (h : Facing ws s) (herr : s.err = 0)
    (hrun : Sys2Proof.core.run ws.length s = .next t) :
    t.err = 0 ↔ ∀ k < ws.length, ∀ u : State, Sys2Proof.core.run (k + 1) s = .next u → Succeeded u := by
  induction ws generalizing s with
  | nil =>
    cases hrun
    simpa using herr
  | cons w ws ih =>
    obtain ⟨u, hu, hfacing, hout⟩ := h.step
    rw [List.length_cons, run_succ hu] at hrun
    simp only [List.length_cons, run_succ hu]
    obtain ⟨hsucc, hsame⟩ | ⟨hfail, hne⟩ := hout
    case inl =>
      rw [ih hfacing (hsame.trans herr) hrun]
      constructor
      · intro hall k hk v hv
        cases k with
        | zero =>
          cases hv
          exact hsucc
        | succ k => exact hall k (Nat.lt_of_succ_lt_succ hk) v hv
      · exact fun hall k hk v hv => hall (k + 1) (Nat.succ_lt_succ hk) v hv
    case inr =>
      have hend : t.err ≠ 0 := hfacing.err_stays hne hrun
      exact ⟨fun h0 => absurd h0 hend, fun hall => absurd (hall 0 (Nat.succ_pos _) u rfl) hfail⟩

end Sys2Proof.Machine

namespace Sys2Proof.Proofs

open Sys2Proof Sys2Proof.Machine Sys2Proof.Certificates

/-- Settles O9: nothing is taken from an empty list of moves. -/
theorem idleEngineKeepsAllState : Obligations.IdleEngineKeepsAllState := fun _ hp => step_of_idle hp

/-- Settles O7: the fields of the reset state, the moves to come apart. -/
theorem rstGivesTheResetState : Obligations.RstGivesTheResetState := by
  intro s rest hp
  exact ⟨_, step_of_rst hp, rfl, rfl, length_freshSparse 256, fun _ hj => freshSparse_getElem? hj, rfl,
    rfl, rfl, rfl, rfl, rfl, rfl, rfl, rfl, rfl, rfl, rfl, rfl, rfl⟩

/-- Settles O15: RESET responds from the state that `RST` leaves. -/
theorem resetCommandIsRstWithAResponse : Obligations.ResetCommandIsRstWithAResponse := by
  refine ⟨operandsMustBeZero_of_z (c := .reset) rfl, fun s rest =>
    ⟨answers_of_respond (t := resetEngine s) rfl, ?_⟩⟩
  intro t hp ht
  rw [step_of_rst hp] at ht
  cases ht
  rfl

/-- Settles O10: the status is 0x00 or the code of the error. -/
theorem everyCommandGetsOneResponse : Obligations.EveryCommandGetsOneResponse := by
  intro s w rest hp
  obtain ⟨t, ht, hpending, ⟨data, hrsp⟩ | ⟨e, info, rfl⟩⟩ := step_of_command hp
  · exact ⟨t, ⟨0x00, data⟩, ht, hpending, hrsp, .inl rfl⟩
  · exact ⟨_, ⟨errorCode e, info⟩, ht, hpending, rfl, .inr (errorCode_mem_errorCodes e)⟩

/-- Settles O11: each step of the run answers. -/
theorem everyRunComesToItsEnd : Obligations.EveryRunComesToItsEnd := by
  intro k
  induction k with
  | zero => exact fun s => ⟨s, rfl⟩
  | succ k ih =>
    intro s
    obtain ⟨u, hu⟩ := exists_step s
    rw [run_succ hu]
    exact ih u

/-- Settles O53: a word other than theirs decodes to neither CLRERR nor RESET. -/
theorem successKeepsTheCapture : Obligations.SuccessKeepsTheCapture :=
  fun _ _ _ _ _ hp hstep hrsp hclrerr hreset => capture_of_step hp hstep hrsp hclrerr hreset

/-- Settles O54: by induction on the words, from whose first on the capture stays or is made. -/
theorem errStaysZeroIffNoCommandFailed : Obligations.ErrStaysZeroIffNoCommandFailed :=
  fun _ _ _ herr hp hkeeps hrun => Facing.err_eq_zero_iff ⟨hp, hkeeps⟩ herr hrun

end Sys2Proof.Proofs
end

section
/-! PROOF. Ill-formed operands (30_encoding.md R83): in a legal state no buffer, row or length reaches what the
operand asks for. -/

namespace Sys2Proof.Proofs

open Sys2Proof Sys2Proof.Machine Sys2Proof.Certificates

/-- A failure with the code of an error is a failure with a code of R210. -/
theorem fails_of_failsWith {i : Instr} {s : State} {info : Word} (e : Error)
    (h : FailsWith i s (errorCode e) info) : ∃ code ∈ errorCodes, ∃ info, FailsWith i s code info :=
  ⟨errorCode e, errorCode_mem_errorCodes e, info, h⟩

/-- Settles O56: each operand lies beyond the capacity that a legal state keeps to. -/
theorem illFormedAlwaysFails : Obligations.IllFormedAlwaysFails := by
  intro i s hs hill
  obtain ⟨hseed, -, hdigest, hhex, hbits, hgrid, hrows⟩ := (Memory.wf_iff s).1 hs.spaces
  have hn := hs.sparse.length_le
  cases i with
  | csrr idx =>
    simp only [WellFormed, Bool.or_eq_false_iff, Bool.and_eq_false_iff, decide_eq_false_iff_not] at hill
    have hidx : csrOfNumber idx = none := csrOfNumber_eq_none_of_undefined (by bv_omega)
    exact fails_of_failsWith .operandRange (failsWith_of_raise (exec_csrr_of_undefined hidx s))
  | csrw idx imm =>
    simp only [WellFormed, Bool.or_eq_false_iff, Bool.and_eq_false_iff, decide_eq_false_iff_not] at hill
    refine fails_of_failsWith .operandRange (failsWith_csrw ?_)
    by_cases hidx : 2 ≤ idx.toNat
    · exact csrWritten_eq_none_of_two_le hidx imm s
    · obtain ⟨hrange, hone⟩ := hill
      have hzero : idx.toNat = 0 := by omega
      obtain rfl : idx = 0x00 := BitVec.eq_of_toNat_eq hzero
      have hmax : Config.nMax = 256 := rfl
      exact (csrWritten_n imm s).trans (if_pos (by omega))
  | seedpush imm =>
    have himm : 255 < imm.toNat := not_le.1 (of_decide_eq_false hill)
    exact fails_of_failsWith .operandRange (failsWith_of_pushByte_wide (exec_seedpush imm s) himm)
  | dpush imm =>
    have himm : 255 < imm.toNat := not_le.1 (of_decide_eq_false hill)
    exact fails_of_failsWith .operandRange (failsWith_of_pushByte_wide (exec_dpush imm s) himm)
  | xpush imm =>
    have himm : 255 < imm.toNat := not_le.1 (of_decide_eq_false hill)
    exact fails_of_failsWith .operandRange (failsWith_of_pushByte_wide (exec_xpush imm s) himm)
  | seedget idx =>
    have hidx : 240 ≤ idx.toNat := not_lt.1 (of_decide_eq_false hill)
    exact fails_of_failsWith .operandRange (failsWith_of_absent rfl (hseed.trans hidx))
  | dget idx =>
    have hidx : 16 ≤ idx.toNat := not_lt.1 (of_decide_eq_false hill)
    exact fails_of_failsWith .operandRange (failsWith_of_absent rfl (hdigest.trans hidx))
  | xget idx =>
    have hidx : 32 ≤ idx.toNat := not_lt.1 (of_decide_eq_false hill)
    exact fails_of_failsWith .operandRange (failsWith_of_absent rfl (hhex.trans hidx))
  | bget idx =>
    have hidx : 128 ≤ idx.toNat := not_lt.1 (of_decide_eq_false hill)
    exact fails_of_failsWith .operandRange
      (failsWith_of_absent rfl ((length_le_of_bitRowOk hbits).trans hidx))
  | gwget idx =>
    have hidx : 128 ≤ idx.toNat := not_lt.1 (of_decide_eq_false hill)
    exact fails_of_failsWith .operandRange (failsWith_of_absent (exec_gwget idx s) (hgrid.trans hidx))
  | gget idx imm =>
    cases hrow : s.grid[idx.toNat]? with
    | none =>
      exact fails_of_failsWith .operandRange
        (failsWith_of_raise (exec_gget_of_no_row (List.getElem?_eq_none_iff.1 hrow) imm))
    | some row =>
      have hlt : idx.toNat < s.grid.length := (List.getElem?_eq_some_iff.1 hrow).1
      have hwidth := length_le_of_bitRowOk (hrows row (List.mem_of_getElem? hrow))
      simp only [WellFormed, Bool.and_eq_false_iff, decide_eq_false_iff_not] at hill
      have himm : 128 ≤ imm.toNat := not_lt.1 (hill.resolve_left (not_not_intro (hlt.trans_le hgrid)))
      exact fails_of_failsWith .operandRange
        (failsWith_of_absent (exec_gget_of_row hrow imm) (hwidth.trans himm))
  | mix v =>
    have hv : 256 < v.toNat := not_le.1 (of_decide_eq_false hill)
    exact fails_of_failsWith .invalidLength (failsWith_mix (tryMix_eq_error.2 (.inl ⟨by omega, rfl⟩)))
  | len v =>
    have hv : 256 < v.toNat := not_le.1 (of_decide_eq_false hill)
    exact fails_of_failsWith .invalidLength (failsWith_len (tryMix_eq_error.2 (.inl ⟨by omega, rfl⟩)))
  | _ => exact absurd hill (by simp [WellFormed])

end Sys2Proof.Proofs
end

section
/-! PROOF. The invariant `Legal` (10_state.md R20, R24, R39, R48): the reset state has it, each execute phase
keeps it, and so does every step. -/

namespace Sys2Proof.Machine

/-! ### The parts that a change of one space keeps -/

section Spaces

variable {s : State} (h : Memory.wf s = true)
include h

theorem Memory.wf_seed {l : List Byte} (hl : l.length ≤ 240) : Memory.wf { s with seed := l } = true := by
  rw [Memory.wf_iff] at h ⊢
  obtain ⟨-, h⟩ := h
  exact ⟨hl, h⟩

theorem Memory.wf_lens {l : List Half} (hl : l.length ≤ 256) : Memory.wf { s with lens := l } = true := by
  rw [Memory.wf_iff] at h ⊢
  obtain ⟨hseed, -, h⟩ := h
  exact ⟨hseed, hl, h⟩

theorem Memory.wf_digest {l : List Byte} (hl : l.length ≤ 16) : Memory.wf { s with digest := l } = true := by
  rw [Memory.wf_iff] at h ⊢
  obtain ⟨hseed, hlens, -, h⟩ := h
  exact ⟨hseed, hlens, hl, h⟩

theorem Memory.wf_hex {l : List Byte} (hl : l.length ≤ 32) : Memory.wf { s with hex := l } = true := by
  rw [Memory.wf_iff] at h ⊢
  obtain ⟨hseed, hlens, hdigest, -, h⟩ := h
  exact ⟨hseed, hlens, hdigest, hl, h⟩

end Spaces

/-- A push onto a list with room for it keeps the list within its capacity. -/
theorem length_concat_le {α : Type} {l : List α} {cap : Nat} (h : l.length < cap) (a : α) :
    (l ++ [a]).length ≤ cap := by
  rw [List.length_append]
  exact h

/-! ### The reset state, and what stands outside the invariant -/

/-- The engine's reset state is legal, whatever moves are still to come (R47). -/
theorem legal_resetEngine (s : State) : Legal (resetEngine s) where
  sparse := sparseLegal_freshSparse (n := 256) (by decide) le_rfl
  spaces := Memory.wf_resetEngine s
  ucnt_le := Nat.zero_le _
  err_code := List.mem_cons_self
  info_clear := fun _ => rfl

/-- The response is no part of the invariant. -/
theorem Legal.with_rsp {s : State} (h : Legal s) (rsp : Option Response) : Legal { s with rsp := rsp } :=
  ⟨h.sparse, h.spaces, h.ucnt_le, h.err_code, h.info_clear⟩

/-- Nor are the moves the host has yet to make. -/
theorem Legal.with_pending {s : State} (h : Legal s) (rest : List HostMove) :
    Legal { s with pending := rest } :=
  ⟨h.sparse, h.spaces, h.ucnt_le, h.err_code, h.info_clear⟩

/-- A change of the spaces alone keeps the invariant where it keeps their form. -/
theorem Legal.of_spaces {s t : State} (h : Legal s) (hspaces : Memory.wf t = true) (hn : t.n = s.n)
    (hsparse : t.sparse = s.sparse) (hucnt : t.ucnt = s.ucnt) (herr : t.err = s.err)
    (hinfo : t.errInfo = s.errInfo) : Legal t where
  sparse := by rw [hn, hsparse]; exact h.sparse
  spaces := hspaces
  ucnt_le := hucnt ▸ h.ucnt_le
  err_code := herr ▸ h.err_code
  info_clear := by rw [herr, hinfo]; exact h.info_clear

/-! ### The execute phases -/

section Phases

variable {s : State} (h : Legal s)
include h

/-- A failure captures a code of R210 (R38). -/
theorem legal_failed (e : Error) (info : Word) : Legal (failed e info s) where
  sparse := h.sparse
  spaces := h.spaces
  ucnt_le := h.ucnt_le
  err_code := by
    rw [failed_err]
    split
    · cases e <;> decide
    · exact h.err_code
  info_clear := fun hzero => absurd hzero (err_failed_ne_zero e info s)

/-- CLRERR clears both registers together (R39). -/
theorem legal_clearCapture : Legal (clearCapture s) :=
  ⟨h.sparse, h.spaces, h.ucnt_le, List.mem_cons_self, fun _ => rfl⟩

/-- A new sparse state of the present length keeps the invariant. -/
theorem Legal.with_sparse {p : Sparse} (hp : SparseLegal s.n.toNat p) : Legal { s with sparse := p } :=
  ⟨hp, h.spaces, h.ucnt_le, h.err_code, h.info_clear⟩

/-- A write of `N` in range brings the fresh sparse state of that length (R26). -/
theorem legal_writeN {v : Nat} (hpos : 1 ≤ v) (hle : v ≤ 256) : Legal (writeN v s) where
  sparse := by
    have hn : (BitVec.ofNat 9 v).toNat = v := by
      rw [BitVec.toNat_ofNat]
      exact Nat.mod_eq_of_lt (by omega)
    rw [writeN_n, hn, writeN_sparse]
    exact sparseLegal_freshSparse hpos hle
  spaces := h.spaces
  ucnt_le := h.ucnt_le
  err_code := h.err_code
  info_clear := h.info_clear

theorem legal_writeRounds (v : Half) : Legal (writeRounds v s) :=
  ⟨h.sparse, h.spaces, h.ucnt_le, h.err_code, h.info_clear⟩

/-- The configuration that both pipelines force is in range (R176). -/
theorem legal_forceHashConfig : Legal (forceHashConfig s) :=
  legal_writeRounds (legal_writeN h (by decide) le_rfl) _

/-- RUN mixes the fresh sparse state (R130). -/
theorem legal_runList : Legal (runList s) := by
  rw [runList_eq]
  exact h.with_sparse
    (sparseLegal_foldl_mixStep (sparseLegal_freshSparse h.sparse.length_pos h.sparse.length_le) _)

theorem legal_deriveSeed : Legal (deriveSeed s) :=
  h.of_spaces (Memory.wf_deriveSeed h.spaces) rfl rfl rfl rfl rfl

theorem legal_deriveRow (r : Nat) : Legal (deriveRow r s) :=
  h.of_spaces (Memory.wf_deriveRow r h.spaces) rfl rfl rfl rfl rfl

theorem legal_foldDigest : Legal (foldDigest s) :=
  h.of_spaces (Memory.wf_foldDigest h.sparse.length_le h.spaces) rfl rfl rfl rfl rfl

theorem legal_encodeHex : Legal (encodeHex s) :=
  h.of_spaces (Memory.wf_encodeHex h.spaces) rfl rfl rfl rfl rfl

theorem legal_decodeHex : Legal (decodeHex s) :=
  h.of_spaces (Memory.wf_decodeHex h.spaces) rfl rfl rfl rfl rfl

theorem legal_clearGrid : Legal (clearGrid s) :=
  h.of_spaces (Memory.wf_clearGrid h.spaces) rfl rfl rfl rfl rfl

theorem legal_pushRow (hroom : s.grid.length < 128) : Legal (pushRow s) :=
  h.of_spaces (Memory.wf_pushRow hroom h.spaces) rfl rfl rfl rfl rfl

/-- RUN, DENSE and HEXENC one after another (R176). -/
theorem legal_hashLengths : Legal (hashLengths s) :=
  legal_encodeHex (legal_foldDigest (legal_runList h))

/-- One row of ROWGEN, where the grid has room for it (R177). -/
theorem legal_makeRow (hroom : s.grid.length < 128) (r : Nat) : Legal (makeRow s r) :=
  legal_pushRow (legal_decodeHex (legal_hashLengths (legal_deriveRow h r))) hroom

end Phases

/-- Each row of ROWGEN adds one row to the grid. -/
theorem length_grid_makeRow (s : State) (r : Nat) : (makeRow s r).grid.length = s.grid.length + 1 :=
  List.length_append

/-- Any rows of ROWGEN, where the grid has room for all of them. -/
theorem legal_makeRows {s : State} (h : Legal s) (rows : List Nat) (hroom : s.grid.length + rows.length ≤ 128) :
    Legal (makeRows rows s) := by
  induction rows generalizing s with
  | nil => exact h
  | cons r rows ih =>
    rw [List.length_cons] at hroom
    exact ih (legal_makeRow h (by omega) r) (by rw [length_grid_makeRow]; omega)

/-- A grid in canonical form has a count of set cells that `UCNT` may hold (R36). -/
theorem toNat_usedCells_le {s : State} (h : Memory.wf s = true) :
    (BitVec.ofNat 15 (usedCells s.grid)).toNat ≤ 16384 := by
  rw [BitVec.toNat_ofNat]
  exact (Nat.mod_le _ _).trans (usedCells_le_of_wf h)

/-- The execute phase of every instruction keeps the invariant. -/
theorem legal_executed {i : Instr} {s : State} (h : Legal s) (hpasses : Passes i s) : Legal (executed i s) := by
  have hspaces := h.spaces
  cases i with
  | csrr _ | seedget _ | lget _ | sget _ | dget _ | xget _ | bget _ | gget _ _ | gwget _ => exact h
  | csrw idx imm =>
    obtain ⟨rfl, hpos, hle⟩ | rfl := hpasses
    · exact legal_writeN h hpos hle
    · exact legal_writeRounds h imm
  | clrerr => exact legal_clearCapture h
  | reset => exact legal_resetEngine s
  | seedclr => exact h.of_spaces (Memory.wf_seed hspaces (Nat.zero_le _)) rfl rfl rfl rfl rfl
  | lclr => exact h.of_spaces (Memory.wf_lens hspaces (Nat.zero_le _)) rfl rfl rfl rfl rfl
  | dclr => exact h.of_spaces (Memory.wf_digest hspaces (Nat.zero_le _)) rfl rfl rfl rfl rfl
  | xclr => exact h.of_spaces (Memory.wf_hex hspaces (Nat.zero_le _)) rfl rfl rfl rfl rfl
  | seedpush _ =>
    exact h.of_spaces (Memory.wf_seed hspaces (length_concat_le hpasses _)) rfl rfl rfl rfl rfl
  | lpush _ => exact h.of_spaces (Memory.wf_lens hspaces (length_concat_le hpasses _)) rfl rfl rfl rfl rfl
  | dpush _ => exact h.of_spaces (Memory.wf_digest hspaces (length_concat_le hpasses _)) rfl rfl rfl rfl rfl
  | xpush _ => exact h.of_spaces (Memory.wf_hex hspaces (length_concat_le hpasses _)) rfl rfl rfl rfl rfl
  | derive => exact legal_deriveSeed h
  | deriver idx => exact legal_deriveRow h _
  | init => exact h.with_sparse (sparseLegal_freshSparse h.sparse.length_pos h.sparse.length_le)
  | mix v | len v => exact h.with_sparse (sparseLegal_mixStep h.sparse v)
  | run => exact legal_runList h
  | dense => exact legal_foldDigest h
  | hexenc => exact legal_encodeHex h
  | hexdec => exact legal_decodeHex h
  | gclr => exact legal_clearGrid h
  | gpush => exact legal_pushRow h hpasses
  | count => exact ⟨h.sparse, hspaces, toNat_usedCells_le hspaces, h.err_code, h.info_clear⟩
  | hash => exact legal_hashLengths (legal_deriveSeed (legal_forceHashConfig h))
  | rowgen => exact legal_makeRows (legal_clearGrid (legal_forceHashConfig h)) _ (by simp)
  | region => exact ⟨h.sparse, hspaces, h.ucnt_le, h.err_code, h.info_clear⟩

/-- So does every instruction, whether it fails or passes. -/
theorem legal_of_exec {i : Instr} {s t : State} (h : Legal s) (hexec : exec i s = .next t) : Legal t := by
  obtain ⟨e, info, rfl⟩ | ⟨hpasses, rsp, rfl⟩ := ran_of_exec hexec
  case failed => exact legal_failed h e info
  case passed => exact (legal_executed h hpasses).with_rsp rsp

end Sys2Proof.Machine

namespace Sys2Proof.Proofs

open Sys2Proof Sys2Proof.Machine Sys2Proof.Certificates

/-- Settles O57: the reset state is the one that a reset of the engine leaves with no move to come. -/
theorem resetStateIsLegal : Obligations.ResetStateIsLegal :=
  ⟨legal_resetEngine State.reset, Nat.zero_le _⟩

/-- Settles O58: a step idles, resets, executes a command or fails on a word that is none, and each of the four
keeps the invariant. -/
theorem stepKeepsTheStateLegal : Obligations.StepKeepsTheStateLegal := by
  intro s t hs hstep
  obtain ⟨-, rfl⟩ | ⟨rest, -, rfl⟩ | ⟨w, rest, i, -, -, hexec⟩ | ⟨w, rest, e, -, -, rfl⟩ := step_eq_next hstep
  · exact hs
  · exact legal_resetEngine { s with pending := rest }
  · exact legal_of_exec (hs.with_pending rest) hexec
  · exact legal_failed (hs.with_pending rest) .illegalCommand w

end Sys2Proof.Proofs
end

section
/-! PROOF. The row number in decimal (41_round_runner.md R128), the fold of the identity (42_dense_reducer.md
R140), and the hex codec character by character (43_hex_codec.md R150, R151, R155). -/

namespace Sys2Proof.Machine

open Sys2Proof.Certificates

/-! ### The row number -/

/-- A decimal digit as a Length List entry is the code of its character (R90, R128). -/
theorem entry_decimalDigit {d : Nat} (hd : d < 10) :
    BitVec.ofNat 16 (decimalDigit d).toNat = BitVec.ofNat 16 (Nat.digitChar d).toNat := by
  have hall : ∀ d < 10, BitVec.ofNat 16 (decimalDigit d).toNat = BitVec.ofNat 16 (Nat.digitChar d).toNat := by
    decide
  exact hall d hd

/-- The digits of a row number below 1000 are its decimal rendering (R128). -/
theorem entries_rowDigits {r : Nat} (hr : r < 1000) :
    (rowDigits r).map (fun c => BitVec.ofNat 16 c.toNat) =
      (Nat.toDigits 10 r).map (fun d => BitVec.ofNat 16 d.toNat) := by
  unfold rowDigits
  split
  case isTrue hone =>
    rw [Nat.toDigits_of_lt_base hone, List.map_singleton, List.map_singleton, entry_decimalDigit hone]
  case isFalse hten =>
    have hlast := entry_decimalDigit (Nat.mod_lt r (by decide : 0 < 10))
    rw [Nat.toDigits_of_base_le (by decide) (not_lt.1 hten)]
    split
    case isTrue htwo =>
      have hfirst : r / 10 < 10 := by omega
      rw [Nat.toDigits_of_lt_base hfirst]
      simp only [List.map_cons, List.map_nil, List.singleton_append, entry_decimalDigit hfirst, hlast]
    case isFalse hthree =>
      have hfirst : r / 10 / 10 < 10 := by omega
      have hmiddle := entry_decimalDigit (Nat.mod_lt (r / 10) (by decide : 0 < 10))
      rw [Nat.toDigits_of_base_le (by decide) (by omega), Nat.toDigits_of_lt_base hfirst,
        show r / 100 = r / 10 / 10 by omega]
      simp only [List.map_cons, List.map_nil, List.cons_append, List.nil_append, entry_decimalDigit hfirst,
        hmiddle, hlast]

/-! ### The fold of the identity -/

/-- A full block of the identity folds to 0: its 16 values differ in the low four bits alone, each of which is
set in eight of them. -/
theorem foldBlock_freshSparse {n b : Nat} (hn : n ≤ 256) (hb : b < n / 16) :
    foldBlock (freshSparse n).cells b = 0 := by
  have hcells : ∀ (acc : Byte), ∀ k ∈ List.range 16,
      acc ^^^ (freshSparse n).cells.getD (16 * b + k) 0 = acc ^^^ BitVec.ofNat 8 (16 * b + k) := by
    intro acc k hk
    have hk := List.mem_range.1 hk
    rw [List.getD_eq_getElem?_getD, freshSparse_getElem? (by omega), Option.getD_some]
  have hblocks : ∀ b < 16,
      (List.range 16).foldl (fun acc k => acc ^^^ BitVec.ofNat 8 (16 * b + k)) 0 = 0#8 := by decide
  rw [foldBlock_eq_foldl (by rw [length_freshSparse]; omega), List.foldl_ext _ _ _ hcells]
  exact hblocks b (by omega)

/-- DENSE of the identity leaves zeros (R140). -/
theorem digest_foldDigest_freshSparse {s : State} (hn : s.n.toNat ≤ 256)
    (hs : s.sparse = freshSparse s.n.toNat) :
    (foldDigest s).digest = List.replicate (s.n.toNat / 16) 0 := by
  refine List.eq_replicate_iff.2 ⟨length_digest_foldDigest s, fun b hb => ?_⟩
  rw [foldDigest_digest] at hb
  obtain ⟨k, hk, rfl⟩ := List.mem_map.1 hb
  rw [hs]
  exact foldBlock_freshSparse hn (List.mem_range.1 hk)

/-! ### Hex digits -/

/-- The character of a 4-bit value is the one of the alphabet at its place (R151). -/
theorem hexDigit_eq_hexCode (v : BitVec 4) : hexDigit v = hexCode v.toNat := by
  revert v
  decide

/-- The same for a number below 16. -/
theorem hexCode_eq_hexDigit {v : Nat} (hv : v < 16) : hexCode v = hexDigit (BitVec.ofNat 4 v) := by
  rw [hexDigit_eq_hexCode, BitVec.toNat_ofNat, Nat.mod_eq_of_lt hv]

/-- Only a character of the alphabet has a value, and it is the character of that value (R151). -/
theorem eq_hexDigit_of_hexVal {c : Byte} {v : BitVec 4} (h : hexVal c = some v) : c = hexDigit v := by
  unfold hexVal Config.digitBase Config.letterBase at h
  split at h
  case isTrue hdigit =>
    obtain rfl := Option.some.inj h
    apply BitVec.eq_of_toNat_eq
    rw [hexDigit, if_pos (by rw [BitVec.toNat_ofNat]; omega), Config.digitBase]
    simp only [BitVec.toNat_ofNat]
    omega
  case isFalse =>
    split at h
    case isTrue hletter =>
      obtain rfl := Option.some.inj h
      apply BitVec.eq_of_toNat_eq
      rw [hexDigit, if_neg (by rw [BitVec.toNat_ofNat]; omega), Config.letterBase]
      simp only [BitVec.toNat_ofNat]
      omega
    case isFalse => cases h

/-- A character that is none of the alphabet has no value. -/
theorem hexVal_eq_none {c : Byte} (h : ∀ v < 16, c ≠ hexCode v) : hexVal c = none := by
  cases hv : hexVal c with
  | none => rfl
  | some v =>
    have hc := eq_hexDigit_of_hexVal hv
    rw [hexDigit_eq_hexCode] at hc
    exact absurd hc (h v.toNat v.isLt)

/-- A character of the alphabet has its place as its value. -/
theorem hexVal_hexCode {v : Nat} (hv : v < 16) : hexVal (hexCode v) = some (BitVec.ofNat 4 v) := by
  rw [hexCode_eq_hexDigit hv, hexVal_hexDigit]

/-- The two characters of a byte stand for its halves, the high one first (R62, R150). -/
theorem hexPair_eq (b : Byte) : hexPair b = [hexCode (b.toNat / 16), hexCode (b.toNat % 16)] := by
  have hhigh : (b.extractLsb' 4 4).toNat = b.toNat / 16 := by
    rw [BitVec.extractLsb'_toNat, Nat.shiftRight_eq_div_pow]
    omega
  have hlow : (b.extractLsb' 0 4).toNat = b.toNat % 16 := by
    rw [BitVec.extractLsb'_toNat, Nat.shiftRight_zero]
  rw [hexPair, hexDigit_eq_hexCode, hexDigit_eq_hexCode, hhigh, hlow]

/-- A list of hex digits expands digit by digit (R155). -/
theorem flatMap_charBits_hexCode {vs : List Nat} (hvs : ∀ v ∈ vs, v < 16) :
    (vs.map hexCode).flatMap charBits = vs.flatMap fun v => nibbleBits (BitVec.ofNat 4 v) := by
  rw [List.flatMap_map]
  refine List.flatMap_congr fun v hv => ?_
  rw [hexCode_eq_hexDigit (hvs v hv), charBits_hexDigit]

/-- HEXDEC fails on the first character that is no hex digit (R155). -/
theorem exec_hexdec_of_found {s : State} {e : Byte × Nat} (h : firstNonHex s.hex = some e) :
    exec .hexdec s = raise .invalidHexChar (hexInfo e) s := by
  simp only [exec, execHexdec, h]

/-- The info of a failed HEXDEC as one number, for an index that its field can hold (R155). -/
theorem hexInfo_eq {i : Nat} (hi : i < 256) (c : Byte) :
    hexInfo (c, i) = BitVec.ofNat 32 (i * 256 + c.toNat) := by
  have hindex : 0#16 ++ BitVec.ofNat 8 i = BitVec.ofNat 24 i := by
    rw [ofNat_append, BitVec.toNat_ofNat, Nat.zero_mul, Nat.zero_add, Nat.mod_eq_of_lt hi]
  rw [hexInfo, hindex]
  exact ofNat_append i c

end Sys2Proof.Machine

namespace Sys2Proof.Proofs

open Sys2Proof Sys2Proof.Machine Sys2Proof.Certificates

/-- Settles O27: the derived list is the entries of the seed, of the separator, of the row's digits and of the
suffix. -/
theorem deriverRendersTheRowInDecimal : Obligations.DeriverRendersTheRowInDecimal := by
  refine ⟨immMustBeZero_of_x (c := .deriver) rfl, fun s idx => ?_⟩
  have hlens : lengthsOf (rowString s.seed idx.toNat) =
      s.seed.map (fun c : Byte => BitVec.ofNat 16 c.toNat) ++ [0x2D]
        ++ (Nat.toDigits 10 idx.toNat).map (fun d => BitVec.ofNat 16 d.toNat) ++ [17, 31, 73, 47, 23] := by
    rw [lengthsOf_eq, rowString, List.map_append, List.map_cons, entries_rowDigits (by omega),
      ← List.singleton_append, ← List.append_assoc]
    rfl
  rw [← hlens]
  exact answers_of_respond (t := deriveRow idx.toNat s) rfl

/-- Settles O39: INIT leaves the identity, and each of its blocks folds to 0. -/
theorem identityFoldsToZero : Obligations.IdentityFoldsToZero := by
  intro s hs hmul
  have hinit : exec .init s = .next (answered 0 { s with sparse := freshSparse s.n.toNat }) := rfl
  have hdense := execDense_of_multiple (s := answered 0 { s with sparse := freshSparse s.n.toNat }) hmul
  exact ⟨_, (execAll_cons hinit).trans (execAll_cons hdense),
    digest_foldDigest_freshSparse hs.sparse.length_le rfl⟩

/-- Settles O40: two characters for each byte, read at both places. -/
theorem hexencRendersBothNibbles : Obligations.HexencRendersBothNibbles := by
  refine ⟨operandsMustBeZero_of_z (c := .hexenc) rfl, fun s => ⟨s.digest.flatMap hexPair,
    answers_of_respond (t := encodeHex s) rfl, length_flatMap_hexPair s.digest, fun i b hb => ?_⟩⟩
  have hplace : ∀ k < 2, (s.digest.flatMap hexPair)[2 * i + k]? = (hexPair b)[k]? :=
    fun _ hk => getElem?_flatMap_of_width (width := 2) (fun _ => rfl) hb hk
  rw [hexPair_eq] at hplace
  exact ⟨hplace 0 (by decide), hplace 1 (by decide)⟩

/-- Settles O41: four bits for each digit, read at each of the four places; else the check phase finds character
`i`, and the info holds it with its index. -/
theorem hexdecExpandsEachDigit : Obligations.HexdecExpandsEachDigit := by
  refine ⟨operandsMustBeZero_of_z (c := .hexdec) rfl, fun s => ⟨fun vs hvs hhex => ?digits,
    fun i c hlen hc hother hbefore => ?other⟩⟩
  case digits =>
    have hpass : firstNonHex s.hex = none := by
      rw [firstNonHex_eq_none, hhex]
      intro c hc
      obtain ⟨v, hv, rfl⟩ := List.mem_map.1 hc
      rw [hexVal_hexCode (hvs v hv), Option.isSome_some]
    have hwidth : ∀ v : Nat, (nibbleBits (BitVec.ofNat 4 v)).length = 4 := fun _ => rfl
    refine ⟨_, answers_of_respond (t := decodeHex s) (execHexdec_of_passed hpass), ?_, fun i v hv => ?_⟩
    · rw [hhex, flatMap_charBits_hexCode hvs, length_flatMap_of_width hwidth, List.length_map]
    · have hplace : ∀ k < 4, (s.hex.flatMap charBits)[4 * i + k]? = (nibbleBits (BitVec.ofNat 4 v))[k]? := by
        rw [hhex, flatMap_charBits_hexCode hvs]
        exact fun _ hk => getElem?_flatMap_of_width hwidth hv hk
      have hbit : ∀ k < 4, (BitVec.ofNat 4 v).getLsbD k = v.testBit k := by
        intro k hk
        rw [BitVec.getLsbD_ofNat, decide_eq_true hk, Bool.true_and]
      rw [nibbleBits, hbit 3 (by decide), hbit 2 (by decide), hbit 1 (by decide), hbit 0 (by decide)] at hplace
      exact ⟨hplace 0 (by decide), hplace 1 (by decide), hplace 2 (by decide), hplace 3 (by decide)⟩
  case other =>
    have hi : i < s.hex.length := (List.getElem?_eq_some_iff.1 hc).1
    have hfound : firstNonHex s.hex = some (c, i) := by
      refine find?_zipIdx_eq_some (p := fun c => (hexVal c).isNone) hc ?_ fun j hj d hd => ?_
      · rw [hexVal_eq_none hother, Option.isNone_none]
      · obtain ⟨v, hv, hdigit⟩ := hbefore j hj
        obtain rfl : hexCode v = d := Option.some.inj (hdigit.symm.trans hd)
        rw [hexVal_hexCode hv, Option.isNone_some]
    rw [← hexInfo_eq (by omega)]
    exact failsWith_of_raise (exec_hexdec_of_found hfound)

end Sys2Proof.Proofs
end

section
/-! PROOF. The pipelines HASH and ROWGEN (44_bitmap_synthesizer.md R175 to R178): the commands they consist of
run through, and what they leave. The state before each inner command holds the response of the one before,
which no command reads. -/

namespace Sys2Proof.Machine

open Sys2Proof.Certificates

/-! ### The inner commands one after another -/

/-- The first two inner commands of both pipelines force the configuration (R176, R177). -/
theorem execAll_forceHashConfig (rest : List Instr) (s : State) :
    execAll (.csrw 0x00 256 :: .csrw 0x01 64 :: rest) s = execAll rest (answered 0 (forceHashConfig s)) := by
  have hn : exec (.csrw 0x00 256) s = .next (answered 0 (writeN 256 s)) := answers_csrw (csrWritten_n 256 s)
  have hrounds : exec (.csrw 0x01 64) (answered 0 (writeN 256 s)) = .next (answered 0 (forceHashConfig s)) :=
    answers_csrw (t := writeRounds 64 (answered 0 (writeN 256 s)))
      (csrWritten_rounds 64 (answered 0 (writeN 256 s)))
  rw [execAll_cons hn, execAll_cons hrounds]

/-- No entry of a derived Length List exceeds 255: each is a byte (R127). -/
theorem toNat_le_of_mem_lengthsOf {chars : List Byte} {v : Half} (hv : v ∈ lengthsOf chars) :
    v.toNat ≤ 255 := by
  obtain ⟨c, -, rfl⟩ := List.mem_map.1 hv
  rw [BitVec.toNat_setWidth]
  exact (Nat.mod_le _ _).trans (Nat.le_of_lt_succ c.isLt)

/-- A state of length 256 with a derived Length List passes the check of RUN (R176). -/
theorem runPasses_of_derived {s : State} {chars : List Byte} (hn : s.n = 256)
    (hlens : s.lens = lengthsOf chars) : RunPasses s := by
  refine .inr fun v hv => ?_
  rw [hlens] at hv
  rw [hn]
  exact (toNat_le_of_mem_lengthsOf hv).trans (by decide)

/-- RUN, DENSE and HEXENC pass their checks on a derived Length List (R176). -/
theorem execAll_hashLengths {s : State} {chars : List Byte} (hn : s.n = 256) (hlens : s.lens = lengthsOf chars)
    (rest : List Instr) :
    execAll (.run :: .dense :: .hexenc :: rest) (answered 0 s) = execAll rest (answered 0 (hashLengths s)) := by
  have hrun : exec .run (answered 0 s) = .next (answered 0 (runList s)) :=
    exec_run_of_passes (s := answered 0 s) (runPasses_of_derived hn hlens)
  have hdense : exec .dense (answered 0 (runList s)) = .next (answered 0 (foldDigest (runList s))) :=
    execDense_of_multiple (s := answered 0 (runList s)) (by rw [answered_n, runList_n, hn]; rfl)
  have hhexenc : exec .hexenc (answered 0 (foldDigest (runList s))) = .next (answered 0 (hashLengths s)) := rfl
  rw [execAll_cons hrun, execAll_cons hdense, execAll_cons hhexenc]

/-- The inner commands of ROWGEN for a row, up to its bits, pass their checks (R177). -/
theorem execAll_rowBits {s : State} {r : Nat} (hn : s.n = 256) (hr : r < 256) (rest : List Instr) :
    execAll (.deriver (BitVec.ofNat 8 r) :: .run :: .dense :: .hexenc :: .hexdec :: rest) (answered 0 s) =
      execAll rest (answered 0 (decodeHex (hashLengths (deriveRow r s)))) := by
  have hindex : (BitVec.ofNat 8 r).toNat = r := by
    rw [BitVec.toNat_ofNat]
    exact Nat.mod_eq_of_lt hr
  have hderiver : exec (.deriver (BitVec.ofNat 8 r)) (answered 0 s) = .next (answered 0 (deriveRow r s)) := by
    conv => rhs; rw [← hindex]
    rfl
  have hhexdec : exec .hexdec (answered 0 (hashLengths (deriveRow r s))) =
      .next (answered 0 (decodeHex (hashLengths (deriveRow r s)))) :=
    execHexdec_of_passed (firstNonHex_flatMap_hexPair (foldDigest (runList (deriveRow r s))).digest)
  rw [execAll_cons hderiver, execAll_hashLengths (s := deriveRow r s) hn (deriveRow_lens r s),
    execAll_cons hhexdec]

/-- The inner commands of ROWGEN for some rows pass their checks where the grid has room for these rows
(R177). -/
theorem execAll_rowSequences {s : State} {rows : List Nat} (hn : s.n = 256) (hrows : ∀ r ∈ rows, r < 256)
    (hroom : s.grid.length + rows.length ≤ 128) :
    execAll (rows.flatMap rowSequence) (answered 0 s) = .next (answered 0 (makeRows rows s)) := by
  induction rows generalizing s with
  | nil => rfl
  | cons r rows ih =>
    rw [List.length_cons] at hroom
    have hrow : s.grid.length < 128 := by omega
    have hgpush : exec .gpush (answered 0 (decodeHex (hashLengths (deriveRow r s)))) =
        .next (answered 0 (makeRow s r)) :=
      exec_gpush_of_room (s := answered 0 (decodeHex (hashLengths (deriveRow r s)))) hrow
    calc execAll ((r :: rows).flatMap rowSequence) (answered 0 s)
        = execAll (.gpush :: rows.flatMap rowSequence)
            (answered 0 (decodeHex (hashLengths (deriveRow r s)))) :=
          execAll_rowBits hn (hrows r List.mem_cons_self) _
      _ = execAll (rows.flatMap rowSequence) (answered 0 (makeRow s r)) := execAll_cons hgpush
      _ = .next (answered 0 (makeRows rows (makeRow s r))) :=
          ih (s := makeRow s r) hn (fun u hu => hrows u (List.mem_cons_of_mem _ hu))
            (by rw [length_grid_makeRow]; omega)

/-- What HASH does (R176). -/
theorem exec_hash (s : State) : exec .hash s = respond 0 (hashLengths (deriveSeed (forceHashConfig s))) := rfl

/-- What ROWGEN does (R177). -/
theorem exec_rowgen (s : State) :
    exec .rowgen s = respond 0 (makeRows (List.range 128) (clearGrid (forceHashConfig s))) := rfl

/-! ### What the hash leaves -/

/-- A hash at length 256 has 16 digest bytes (R140). -/
theorem length_digest_hashLengths {s : State} (hn : s.n = 256) : (hashLengths s).digest.length = 16 := by
  rw [hashLengths, encodeHex_digest, length_digest_foldDigest, runList_n, hn]
  rfl

/-- So it has 32 characters (R150). -/
theorem length_hex_hashLengths {s : State} (hn : s.n = 256) : (hashLengths s).hex.length = 32 := by
  rw [hashLengths, encodeHex_hex, length_flatMap_hexPair, length_digest_foldDigest, runList_n, hn]
  rfl

/-- The skip size counts every entry of every round (R131 item 3). -/
theorem skip_hashLengths {s : State} {chars : List Byte} (hs : Memory.wf s = true) (hrounds : s.rounds = 64)
    (hlens : s.lens = lengthsOf chars) :
    (hashLengths s).sparse.skip.toNat = 64 * (chars.length + 5) := by
  rw [hashLengths, encodeHex_sparse, foldDigest_sparse, runList_eq,
    toNat_skip_foldl_mixStep _ (skip_freshSparse_add_runEntries_le hs _), toNat_skip_freshSparse, Nat.zero_add,
    length_runEntries, hrounds, hlens, length_lengthsOf]
  rfl

/-! ### What the rows leave -/

/-- The digest of a row string at the forced configuration (R177). -/
def rowDigest (seed : List Byte) (r : Nat) : List Byte :=
  (List.range 16).map
    (foldBlock (applyRounds 256 (lengthsOf (rowString seed r)) 64 (freshSparse 256)).cells)

/-- The bits of a row: those of its digest, byte by byte. -/
def rowBits (seed : List Byte) (r : Nat) : List Bool := (rowDigest seed r).flatMap byteBits

theorem length_rowBits (seed : List Byte) (r : Nat) : (rowBits seed r).length = 128 := by
  rw [rowBits, length_flatMap_of_width length_byteBits, rowDigest, List.length_map, List.length_range]

/-- What the inner commands leave in `B` is a function of the seed and the row number (R178 item 1). -/
theorem bits_decodeHex_hashLengths {s : State} (hn : s.n = 256) (hrounds : s.rounds = 64) (r : Nat) :
    (decodeHex (hashLengths (deriveRow r s))).bits = rowBits s.seed r := by
  have hdigest : (foldDigest (runList (deriveRow r s))).digest = rowDigest s.seed r := by
    rw [foldDigest_digest, runList_n, runList_sparse, deriveRow_n, deriveRow_rounds, deriveRow_lens, hn,
      hrounds]
    rfl
  rw [decodeHex_bits, hashLengths, encodeHex_hex, flatMap_hexPair_flatMap_charBits, hdigest, rowBits]

/-- The rows stand in the grid after those that were there. -/
theorem makeRows_grid {s : State} (hn : s.n = 256) (hrounds : s.rounds = 64) (rows : List Nat) :
    (makeRows rows s).grid = s.grid ++ rows.map (rowBits s.seed) := by
  induction rows generalizing s with
  | nil => exact (List.append_nil _).symm
  | cons r rows ih =>
    have hrow : (makeRow s r).grid = s.grid ++ [rowBits s.seed r] :=
      congrArg (s.grid ++ [·]) (bits_decodeHex_hashLengths hn hrounds r)
    calc (makeRows rows (makeRow s r)).grid
        = (makeRow s r).grid ++ rows.map (rowBits s.seed) := ih (s := makeRow s r) hn hrounds
      _ = s.grid ++ (r :: rows).map (rowBits s.seed) := by
          rw [hrow, List.append_assoc, List.map_cons, List.singleton_append]

/-- Rows change the sparse state, the Length List, the digest, the characters, the bits and the grid alone. -/
theorem exists_makeRows_eq (rows : List Nat) (s : State) :
    ∃ p l d x b g, makeRows rows s =
      { s with sparse := p, lens := l, digest := d, hex := x, bits := b, grid := g } := by
  induction rows generalizing s with
  | nil => exact ⟨_, _, _, _, _, _, rfl⟩
  | cons r rows ih =>
    obtain ⟨p, l, d, x, b, g, h⟩ := ih (makeRow s r)
    exact ⟨p, l, d, x, b, g, h⟩

/-- The grid that ROWGEN leaves (R177). -/
theorem grid_rowgen (s : State) :
    (makeRows (List.range 128) (clearGrid (forceHashConfig s))).grid = (List.range 128).map (rowBits s.seed) :=
  makeRows_grid (s := clearGrid (forceHashConfig s)) rfl rfl _

/-! ### REGION's check phase -/

/-- A REGION whose check phase passes counts and responds (R190). -/
theorem exec_region_of_rectangular {s : State} (h : firstRagged s.grid = none) :
    exec .region s =
      respond (BitVec.ofNat 32 (regionCount s.grid s.grid.length (firstWidth s.grid)))
        { s with rcnt := BitVec.ofNat 14 (regionCount s.grid s.grid.length (firstWidth s.grid)) } := by
  simp only [exec, execRegion, h]

/-- REGION fails on the first row that its check phase finds (R190). -/
theorem exec_region_of_ragged {s : State} {r : Nat} (h : firstRagged s.grid = some r) :
    exec .region s = raise .malformedGrid (BitVec.ofNat 32 r) s := by
  simp only [exec, execRegion, h]

/-- The width of row 0. -/
theorem firstWidth_eq {g : List (List Bool)} {row0 : List Bool} (h : g[0]? = some row0) :
    firstWidth g = row0.length := by
  rw [firstWidth, List.headD_eq_head?_getD, List.head?_eq_getElem?, h, Option.getD_some]

/-- Rows of one width pass the check phase. -/
theorem firstRagged_of_width {g : List (List Bool)} {width : Nat} (h : ∀ row ∈ g, row.length = width) :
    firstRagged g = none := by
  refine firstRagged_eq_none.2 fun row hrow => ?_
  cases g with
  | nil => cases hrow
  | cons row0 g => rw [firstWidth_eq (row0 := row0) rfl, h row hrow, h row0 List.mem_cons_self]

/-- The first row whose width is not row 0's is found (R190). -/
theorem firstRagged_eq_some {g : List (List Bool)} {r : Nat} {row0 row : List Bool} (h0 : g[0]? = some row0)
    (hr : g[r]? = some row) (hne : row.length ≠ row0.length)
    (hbefore : ∀ j < r, ∀ row', g[j]? = some row' → row'.length = row0.length) : firstRagged g = some r := by
  obtain ⟨hlt, rfl⟩ := List.getElem?_eq_some_iff.1 hr
  refine List.findIdx?_eq_some_iff_getElem.2 ⟨hlt, ?_, fun j hj => ?_⟩
  · rw [firstWidth_eq h0]
    exact decide_eq_true hne
  · rw [firstWidth_eq h0, hbefore j hj _ (List.getElem?_eq_getElem (hj.trans hlt))]
    simp

end Sys2Proof.Machine

namespace Sys2Proof.Proofs

open Sys2Proof Sys2Proof.Machine Sys2Proof.Certificates

/-- Settles O47: every inner check passes on the forced configuration and the derived list. -/
theorem hashIsItsCommandSequence : Obligations.HashIsItsCommandSequence := by
  intro s
  have hderive : exec .derive (answered 0 (forceHashConfig s)) =
      .next (answered 0 (deriveSeed (forceHashConfig s))) := rfl
  rw [hashSequence, execAll_forceHashConfig, execAll_cons hderive,
    execAll_hashLengths (s := deriveSeed (forceHashConfig s)) rfl (deriveSeed_lens _), exec_hash]
  rfl

/-- Settles O48: the execute phases in turn; the skip size counts the 64 rounds of the derived list. -/
theorem hashWritesThePipelineOnly : Obligations.HashWritesThePipelineOnly := by
  intro s hs
  have hlegal : Legal (deriveSeed (forceHashConfig s)) := legal_deriveSeed (legal_forceHashConfig hs)
  have hlens := deriveSeed_lens (forceHashConfig s)
  exact ⟨_, _, _, _, answers_of_respond (exec_hash s), skip_hashLengths hlegal.spaces rfl hlens,
    length_lengthsOf s.seed, length_digest_hashLengths rfl, length_hex_hashLengths rfl⟩

/-- Settles O49: the inner commands of all 128 rows on the forced configuration and an empty grid. -/
theorem rowgenIsItsCommandSequence : Obligations.RowgenIsItsCommandSequence := by
  intro s
  have hgclr : exec .gclr (answered 0 (forceHashConfig s)) =
      .next (answered 0 (clearGrid (forceHashConfig s))) := rfl
  have hrows : ∀ r ∈ List.range 128, r < 256 := fun r hr => (List.mem_range.1 hr).trans (by decide)
  calc exec .rowgen s
      = execAll ((List.range 128).flatMap rowSequence) (answered 0 (clearGrid (forceHashConfig s))) :=
        (execAll_rowSequences (s := clearGrid (forceHashConfig s)) rfl hrows (by simp)).symm
    _ = execAll (.gclr :: (List.range 128).flatMap rowSequence) (answered 0 (forceHashConfig s)) :=
        (execAll_cons hgclr).symm
    _ = execAll rowgenSequence s := (execAll_forceHashConfig _ s).symm

/-- Settles O50: the grid is the 128 rows, each of the bits of a full digest. -/
theorem rowgenGridIsSquare : Obligations.RowgenGridIsSquare := by
  intro s
  obtain ⟨p, l, d, x, b, g, h⟩ := exists_makeRows_eq (List.range 128) (clearGrid (forceHashConfig s))
  have hgrid : g = (List.range 128).map (rowBits s.seed) :=
    (congrArg State.grid h).symm.trans (grid_rowgen s)
  have hwidth : ∀ row ∈ g, row.length = 128 := by
    rw [hgrid]
    rintro _ hrow
    obtain ⟨r, -, rfl⟩ := List.mem_map.1 hrow
    exact length_rowBits s.seed r
  have hrowgen : exec .rowgen s = .next (answered 0 { forceHashConfig s with
      sparse := p, lens := l, digest := d, hex := x, bits := b, grid := g }) := by
    rw [exec_rowgen, h]
    rfl
  have hregion := exec_region_of_rectangular (s := answered 0 { forceHashConfig s with
      sparse := p, lens := l, digest := d, hex := x, bits := b, grid := g }) (firstRagged_of_width hwidth)
  exact ⟨p, l, d, x, b, g, _, hrowgen, by rw [hgrid, List.length_map, List.length_range], hwidth,
    (execAll_cons hrowgen).trans (execAll_cons hregion), _, rfl⟩

/-- Settles O51: both are `rowBits` of the seed and the row number. -/
theorem gridRowsAreIndependent : Obligations.GridRowsAreIndependent := by
  intro s u t v r hr hseed ht hv
  rw [exec_rowgen] at ht
  obtain rfl := respond_eq_next ht
  rw [execAll_forceHashConfig, execAll_rowBits (s := forceHashConfig u) rfl (hr.trans (by decide))] at hv
  obtain rfl : _ = v := Host.Outcome.next.inj hv
  rw [answered_grid, grid_rowgen, List.getElem?_map, List.getElem?_range hr, Option.map_some, answered_bits,
    bits_decodeHex_hashLengths (s := forceHashConfig u) rfl rfl, forceHashConfig_seed, hseed]

/-- Settles O45: the check phase finds row `r`. -/
theorem regionRefusesTheFirstRaggedRow : Obligations.RegionRefusesTheFirstRaggedRow :=
  fun _ _ _ _ h0 hr hne hbefore =>
    failsWith_of_raise (exec_region_of_ragged (firstRagged_eq_some h0 hr hne hbefore))

end Sys2Proof.Proofs
end

section
/-! PROOF. The region counter (45_region_counter.md R190 to R193): the fill of R192 marks exactly one region, the
scan counts each region once, and no legal grid has more than 8192 of them (10_state.md R37). -/

namespace Sys2Proof.Machine

open Sys2Proof.Certificates

/-! ### Grids of cells and of marks -/

/-- A grid of `ht` rows of `wd` cells each. -/
structure Rect (ht wd : Nat) (g : List (List Bool)) : Prop where
  height : g.length = ht
  width : ∀ row ∈ g, row.length = wd

/-- A cell is present and set exactly when it reads as set. -/
theorem setCell_iff (g : List (List Bool)) (c : Coord) :
    (g[c.1]?.bind (·[c.2]?)) = some true ↔ cellAt g c = true := by
  unfold cellAt
  rw [List.getD_eq_getElem?_getD, List.getD_eq_getElem?_getD]
  cases g[c.1]? with
  | none => simp
  | some row =>
    rw [Option.bind_some, Option.getD_some]
    cases row[c.2]? <;> simp

/-- A cell that reads as set is a set cell. -/
def setCellAt {g : List (List Bool)} (c : Coord) (h : cellAt g c = true) : SetCell g :=
  ⟨c, (setCell_iff g c).2 h⟩

theorem cellAt_setCell {g : List (List Bool)} (a : SetCell g) : cellAt g a.val = true :=
  (setCell_iff g a.val).1 a.property

/-- A set cell stands in a row of the grid, within the row's width. -/
theorem exists_row_of_cellAt {g : List (List Bool)} {c : Coord} (h : cellAt g c = true) :
    ∃ row ∈ g, c.1 < g.length ∧ c.2 < row.length := by
  obtain ⟨row, hrow, hcell⟩ := Option.bind_eq_some_iff.1 ((setCell_iff g c).2 h)
  exact ⟨row, List.mem_of_getElem? hrow, (List.getElem?_eq_some_iff.1 hrow).1,
    (List.getElem?_eq_some_iff.1 hcell).1⟩

/-- A set cell lies within the grid. -/
theorem Rect.lt_of_cellAt {ht wd : Nat} {g : List (List Bool)} (hg : Rect ht wd g) {c : Coord}
    (h : cellAt g c = true) : c.1 < ht ∧ c.2 < wd := by
  obtain ⟨row, hrow, hr, hc⟩ := exists_row_of_cellAt h
  exact ⟨hg.height ▸ hr, hg.width row hrow ▸ hc⟩

/-- Marking a cell keeps the shape of the marks. -/
theorem Rect.markVisited {ht wd : Nat} {v : List (List Bool)} (hv : Rect ht wd v) (c : Coord) :
    Rect ht wd (markVisited c v) where
  height := by rw [Machine.markVisited, List.length_modify, hv.height]
  width := by
    intro row hrow
    obtain ⟨i, hi⟩ := List.getElem?_of_mem hrow
    rw [Machine.markVisited, List.getElem?_modify] at hi
    obtain ⟨row', hrow', rfl⟩ := Option.map_eq_some_iff.1 hi
    have hwidth := hv.width row' (List.mem_of_getElem? hrow')
    split
    · rw [List.length_set, hwidth]
    · exact hwidth

/-- Marking a cell within the grid marks this cell and no other. -/
theorem cellAt_markVisited {ht wd : Nat} {v : List (List Bool)} (hv : Rect ht wd v) {c : Coord} (hr : c.1 < ht)
    (hc : c.2 < wd) (d : Coord) : cellAt (markVisited c v) d = true ↔ d = c ∨ cellAt v d = true := by
  obtain ⟨r, k⟩ := c
  obtain ⟨r', k'⟩ := d
  have hrow : r < v.length := hv.height ▸ hr
  have hcol : k < v[r].length := (hv.width _ (List.getElem_mem hrow)).symm ▸ hc
  rw [← setCell_iff, ← setCell_iff, markVisited, List.getElem?_modify, Prod.mk.injEq]
  by_cases hrr : r = r'
  · subst hrr
    rw [List.getElem?_eq_getElem hrow]
    by_cases hkk : k = k'
    · subst hkk
      simp [hcol]
    · simp [hkk, Ne.symm hkk]
  · simp [hrr, Ne.symm hrr]

/-- A fresh grid of marks marks nothing. -/
theorem cellAt_replicate (ht wd : Nat) (c : Coord) :
    cellAt (List.replicate ht (List.replicate wd false)) c = false := by
  rw [← Bool.not_eq_true, ← setCell_iff, List.getElem?_replicate]
  split
  · rw [Option.bind_some, List.getElem?_replicate]
    split <;> simp
  · simp

theorem rect_replicate (ht wd : Nat) : Rect ht wd (List.replicate ht (List.replicate wd false)) where
  height := List.length_replicate
  width := fun row hrow => by rw [List.eq_of_mem_replicate hrow, List.length_replicate]

/-- A cell is new where it is set and unmarked. -/
theorem isNew_iff {g v : List (List Bool)} {c : Coord} :
    isNew g v c = true ↔ cellAt g c = true ∧ cellAt v c ≠ true := by
  simp [isNew]

theorem adjacent_symm {c d : Coord} (h : Adjacent c d) : Adjacent d c := by
  unfold Adjacent at h ⊢
  omega

/-- The neighbours of a cell are the adjacent cells within the grid (R191). -/
theorem mem_neighbours {ht wd : Nat} {c d : Coord} (hr : c.1 < ht) (hc : c.2 < wd) :
    d ∈ neighbours ht wd c ↔ Adjacent c d ∧ d.1 < ht ∧ d.2 < wd := by
  obtain ⟨r, k⟩ := c
  obtain ⟨r', k'⟩ := d
  have hlist : ∀ (p : Prop) [Decidable p] (x : Coord),
      (r', k') ∈ (if p then [x] else []) ↔ p ∧ r' = x.1 ∧ k' = x.2 := by
    intro p _ x
    split <;> simp [*, Prod.ext_iff]
  simp only [neighbours, List.mem_append, hlist, Adjacent] at hr hc ⊢
  omega

/-! ### Regions -/

/-- The region of a set cell. -/
def regionOf {g : List (List Bool)} (a : SetCell g) : Regions g := Quot.mk _ a

/-- Adjacent set cells lie in one region (R191). -/
theorem regionOf_eq_of_adjacent {g : List (List Bool)} {a b : SetCell g} (h : Adjacent a.val b.val) :
    regionOf a = regionOf b := Quot.sound h

/-- Marks that every set cell shares with its set neighbours. -/
def ClosedMarks (g v : List (List Bool)) : Prop :=
  ∀ a b : SetCell g, cellAt v a.val = true → Adjacent a.val b.val → cellAt v b.val = true

/-- Closed marks take in the whole region of a marked cell or none of it. -/
theorem ClosedMarks.cellAt_iff {g v : List (List Bool)} (h : ClosedMarks g v) {a b : SetCell g}
    (hab : regionOf a = regionOf b) : cellAt v a.val = true ↔ cellAt v b.val = true := by
  have hsame : ∀ a b : SetCell g, Adjacent a.val b.val →
      (cellAt v a.val = true) = (cellAt v b.val = true) := fun a b hadj =>
    propext ⟨fun ha => h a b ha hadj, fun hb => h b a hb (adjacent_symm hadj)⟩
  exact iff_of_eq (congrArg (Quot.lift (fun a : SetCell g => cellAt v a.val = true) hsame) hab)

/-- The regions with a marked cell. -/
def foundRegions (g v : List (List Bool)) : Set (Regions g) :=
  { q | ∃ a : SetCell g, cellAt v a.val = true ∧ regionOf a = q }

theorem finite_setCell (g : List (List Bool)) : Finite (SetCell g) :=
  Finite.of_surjective _ (setCellOf_bijective g).2

theorem finite_regions (g : List (List Bool)) : Finite (Regions g) :=
  have := finite_setCell g
  Finite.of_surjective (regionOf (g := g)) Quot.exists_rep

/-! ### The fill -/

section Filling

variable {ht wd : Nat} {g : List (List Bool)}

/-- The set cells without a mark. -/
def unmarked (ht wd : Nat) (g v : List (List Bool)) : Finset Coord :=
  (Finset.range ht ×ˢ Finset.range wd).filter fun c => isNew g v c = true

theorem card_unmarked_le (v : List (List Bool)) : (unmarked ht wd g v).card ≤ ht * wd := by
  refine (Finset.card_filter_le _ _).trans ?_
  rw [Finset.card_product, Finset.card_range, Finset.card_range]

/-- Marking a new cell leaves one unmarked cell less. -/
theorem card_unmarked_markVisited (hg : Rect ht wd g) {v : List (List Bool)} (hv : Rect ht wd v) {c : Coord}
    (hc : isNew g v c = true) :
    (unmarked ht wd g (markVisited c v)).card + 1 = (unmarked ht wd g v).card := by
  obtain ⟨hrow, hcol⟩ := hg.lt_of_cellAt (isNew_iff.1 hc).1
  have hmem : c ∈ unmarked ht wd g v := by
    simp [unmarked, hc, hrow, hcol]
  have herase : unmarked ht wd g (markVisited c v) = (unmarked ht wd g v).erase c := by
    ext d
    simp only [unmarked, Finset.mem_filter, Finset.mem_erase, isNew_iff, ne_eq, cellAt_markVisited hv hrow hcol,
      not_or]
    tauto
  rw [herase, Finset.card_erase_add_one hmem]

/-- The state of a fill of the region of `a` that started from the marks `v₀`: the marks are those of `v₀` and
some of the region, and only the cells of `opened` may still have unmarked neighbours (R192). -/
structure Filling (ht wd : Nat) (v₀ : List (List Bool)) (a : SetCell g) (opened : List Coord)
    (v : List (List Bool)) : Prop where
  rect : Rect ht wd v
  started : cellAt v a.val = true
  keeps : ∀ c, cellAt v₀ c = true → cellAt v c = true
  within : ∀ b : SetCell g, cellAt v b.val = true → cellAt v₀ b.val = true ∨ regionOf b = regionOf a
  opened_region : ∀ c ∈ opened, ∃ b : SetCell g, b.val = c ∧ regionOf b = regionOf a
  closed : ∀ b d : SetCell g, cellAt v b.val = true → b.val ∉ opened → Adjacent b.val d.val →
    cellAt v d.val = true

variable {v₀ : List (List Bool)} {a : SetCell g}

/-- A fill starts with the one cell marked and in the work list. -/
theorem filling_start (hg : Rect ht wd g) (hv : Rect ht wd v₀) (hclosed : ClosedMarks g v₀) (a : SetCell g) :
    Filling ht wd v₀ a [a.val] (markVisited a.val v₀) := by
  obtain ⟨hrow, hcol⟩ := hg.lt_of_cellAt (cellAt_setCell a)
  have hmark := cellAt_markVisited hv hrow hcol
  refine ⟨hv.markVisited a.val, (hmark _).2 (.inl rfl), fun c hc => (hmark c).2 (.inr hc), fun b hb => ?within,
    fun c hc => ⟨a, (List.mem_singleton.1 hc).symm, rfl⟩, fun b d hb hnot hadj => ?closed⟩
  case within =>
    obtain hba | hb := (hmark _).1 hb
    · exact .inr (congrArg regionOf (Subtype.ext hba))
    · exact .inl hb
  case closed =>
    obtain hba | hb := (hmark _).1 hb
    · exact absurd (List.mem_singleton.2 hba) hnot
    · exact (hmark _).2 (.inr (hclosed b d hb hadj))

/-- Examining a neighbour of an opened cell keeps the state of the fill. -/
theorem Filling.visit (hg : Rect ht wd g) {c d : Coord} {f : Fill}
    (h : Filling ht wd v₀ a (c :: f.work) f.visited) (hadj : Adjacent c d) :
    Filling ht wd v₀ a (c :: (visit g f d).work) (visit g f d).visited := by
  unfold Machine.visit
  split
  case isFalse => exact h
  case isTrue hnew =>
    have hset := (isNew_iff.1 hnew).1
    obtain ⟨hrow, hcol⟩ := hg.lt_of_cellAt hset
    have hmark := cellAt_markVisited h.rect hrow hcol
    obtain ⟨b, hb, hregion⟩ := h.opened_region c List.mem_cons_self
    have hd : regionOf (setCellAt d hset) = regionOf a :=
      (regionOf_eq_of_adjacent (a := setCellAt d hset) (hb ▸ adjacent_symm hadj)).trans hregion
    refine ⟨h.rect.markVisited d, (hmark _).2 (.inr h.started), fun x hx => (hmark x).2 (.inr (h.keeps x hx)),
      fun x hx => ?within, fun x hx => ?opened, fun x y hx hnot hxy => ?closed⟩
    case within =>
      obtain hxd | hx := (hmark _).1 hx
      · exact .inr ((congrArg regionOf (Subtype.ext hxd)).trans hd)
      · exact h.within x hx
    case opened =>
      simp only [List.mem_cons] at hx
      obtain rfl | rfl | hx := hx
      · exact h.opened_region _ List.mem_cons_self
      · exact ⟨setCellAt x hset, rfl, hd⟩
      · exact h.opened_region _ (List.mem_cons_of_mem _ hx)
    case closed =>
      simp only [List.mem_cons, not_or] at hnot
      obtain ⟨hxc, hxd, hxwork⟩ := hnot
      have hx := ((hmark _).1 hx).resolve_left hxd
      exact (hmark _).2 (.inr (h.closed x y hx (by simp [hxc, hxwork]) hxy))

/-- Examining a cell takes no mark away. -/
theorem cellAt_visit_of_cellAt (hg : Rect ht wd g) {f : Fill} (hf : Rect ht wd f.visited) (d : Coord)
    {x : Coord} (hx : cellAt f.visited x = true) : cellAt (visit g f d).visited x = true := by
  unfold visit
  split
  case isFalse => exact hx
  case isTrue hnew =>
    obtain ⟨hrow, hcol⟩ := hg.lt_of_cellAt (isNew_iff.1 hnew).1
    exact (cellAt_markVisited hf hrow hcol x).2 (.inr hx)

/-- A set cell that has been examined is marked. -/
theorem cellAt_visit_self (hg : Rect ht wd g) {f : Fill} (hf : Rect ht wd f.visited) {d : Coord}
    (hd : cellAt g d = true) : cellAt (visit g f d).visited d = true := by
  unfold visit
  split
  case isFalse hold =>
    by_contra hunmarked
    exact hold (isNew_iff.2 ⟨hd, hunmarked⟩)
  case isTrue =>
    obtain ⟨hrow, hcol⟩ := hg.lt_of_cellAt hd
    exact (cellAt_markVisited hf hrow hcol d).2 (.inl rfl)

/-- A cell enters the work list as it loses its place among the unmarked ones. -/
theorem length_work_visit (hg : Rect ht wd g) {f : Fill} (hf : Rect ht wd f.visited) (d : Coord) :
    (visit g f d).work.length + (unmarked ht wd g (visit g f d).visited).card =
      f.work.length + (unmarked ht wd g f.visited).card := by
  unfold visit
  split
  case isFalse => rfl
  case isTrue hnew =>
    rw [← card_unmarked_markVisited hg hf hnew]
    simp only [List.length_cons]
    omega

/-- Examining neighbours of an opened cell: the state of the fill stays, these neighbours end up marked, and
the work to do does not grow. -/
theorem Filling.foldl_visit (hg : Rect ht wd g) {c : Coord} {ns : List Coord} (hns : ∀ d ∈ ns, Adjacent c d)
    {f : Fill} (h : Filling ht wd v₀ a (c :: f.work) f.visited) :
    Filling ht wd v₀ a (c :: (ns.foldl (Machine.visit g) f).work) (ns.foldl (Machine.visit g) f).visited ∧
    (∀ x, (cellAt f.visited x = true ∨ (x ∈ ns ∧ cellAt g x = true)) →
      cellAt (ns.foldl (Machine.visit g) f).visited x = true) ∧
    (ns.foldl (Machine.visit g) f).work.length
        + (unmarked ht wd g (ns.foldl (Machine.visit g) f).visited).card
      = f.work.length + (unmarked ht wd g f.visited).card := by
  induction ns generalizing f with
  | nil => exact ⟨h, fun x hx => hx.resolve_right fun hx => absurd hx.1 List.not_mem_nil, rfl⟩
  | cons d ns ih =>
    have hstep := h.visit hg (hns d List.mem_cons_self)
    obtain ⟨hfill, hmarks, hwork⟩ := ih (fun x hx => hns x (List.mem_cons_of_mem _ hx)) hstep
    refine ⟨hfill, fun x hx => hmarks x ?_, hwork.trans (length_work_visit hg h.rect d)⟩
    obtain hx | ⟨hx, hset⟩ := hx
    · exact .inl (cellAt_visit_of_cellAt hg h.rect d hx)
    · obtain rfl | hx := List.mem_cons.1 hx
      · exact .inl (cellAt_visit_self hg h.rect hset)
      · exact .inr ⟨hx, hset⟩

/-- An opened cell whose set neighbours are all marked need no longer be open. -/
theorem Filling.close {c : Coord} {opened : List Coord} {v : List (List Bool)}
    (h : Filling ht wd v₀ a (c :: opened) v)
    (hmarked : ∀ d : SetCell g, Adjacent c d.val → cellAt v d.val = true) : Filling ht wd v₀ a opened v where
  rect := h.rect
  started := h.started
  keeps := h.keeps
  within := h.within
  opened_region := fun x hx => h.opened_region x (List.mem_cons_of_mem _ hx)
  closed := by
    intro b d hb hnot hadj
    by_cases hbc : b.val = c
    · exact hmarked d (hbc ▸ hadj)
    · exact h.closed b d hb (by simp [hbc, hnot]) hadj

/-- The loop of the fill ends with no cell open, given fuel for the work list and every unmarked cell. -/
theorem Filling.flood (hg : Rect ht wd g) (fuel : Nat) {f : Fill} (h : Filling ht wd v₀ a f.work f.visited)
    (hfuel : f.work.length + (unmarked ht wd g f.visited).card ≤ fuel) :
    Filling ht wd v₀ a [] (flood g ht wd fuel f) := by
  induction fuel generalizing f with
  | zero =>
    have hwork : f.work = [] := List.eq_nil_of_length_eq_zero (by omega)
    rw [hwork] at h
    exact h
  | succ fuel ih =>
    rw [Machine.flood]
    split
    case h_1 hwork =>
      rw [hwork] at h
      exact h
    case h_2 c rest hwork =>
      rw [hwork] at h
      rw [hwork, List.length_cons] at hfuel
      obtain ⟨b, rfl, -⟩ := h.opened_region c List.mem_cons_self
      obtain ⟨hrow, hcol⟩ := hg.lt_of_cellAt (cellAt_setCell b)
      have hmem : ∀ d, d ∈ neighbours ht wd b.val ↔ Adjacent b.val d ∧ d.1 < ht ∧ d.2 < wd :=
        fun d => mem_neighbours hrow hcol
      obtain ⟨hfill, hmarks, hwork'⟩ := Filling.foldl_visit hg (fun d hd => ((hmem d).1 hd).1)
        (f := { f with work := rest }) h
      refine ih (hfill.close fun d hadj => hmarks d.val (.inr ⟨?_, cellAt_setCell d⟩))
        (hwork'.le.trans (show rest.length + (unmarked ht wd g f.visited).card ≤ fuel by omega))
      exact (hmem d.val).2 ⟨hadj, hg.lt_of_cellAt (cellAt_setCell d)⟩

/-- A fill that has no cell open is closed. -/
theorem Filling.closedMarks {v : List (List Bool)} (h : Filling ht wd v₀ a [] v) : ClosedMarks g v :=
  fun b d hb hadj => h.closed b d hb List.not_mem_nil hadj

/-- It has marked what was marked and the whole region of its first cell. -/
theorem Filling.cellAt_iff {v : List (List Bool)} (h : Filling ht wd v₀ a [] v) (b : SetCell g) :
    cellAt v b.val = true ↔ cellAt v₀ b.val = true ∨ regionOf b = regionOf a := by
  constructor
  · exact h.within b
  · rintro (hb | hb)
    · exact h.keeps _ hb
    · exact (h.closedMarks.cellAt_iff hb).2 h.started

end Filling

/-! ### The scan -/

section Scan

variable {ht wd : Nat} {g : List (List Bool)}

/-- The state of the scan: the marks are closed, and the count is that of the regions with a mark (R192). -/
structure Scanned (ht wd : Nat) (g : List (List Bool)) (acc : Nat × List (List Bool)) : Prop where
  rect : Rect ht wd acc.2
  closed : ClosedMarks g acc.2
  count : acc.1 = (foundRegions g acc.2).ncard

/-- The scan starts with no mark and no region. -/
theorem scanned_start (ht wd : Nat) (g : List (List Bool)) :
    Scanned ht wd g (0, List.replicate ht (List.replicate wd false)) where
  rect := rect_replicate ht wd
  closed := fun a _ ha => absurd ha (by simp [cellAt_replicate])
  count := by
    have hnone : foundRegions g (List.replicate ht (List.replicate wd false)) = ∅ := by
      simp [foundRegions, cellAt_replicate]
    rw [hnone, Set.ncard_empty]

/-- A fill that has ended has found one region more. -/
theorem ncard_foundRegions_of_filling {v v' : List (List Bool)} (hclosed : ClosedMarks g v) {a : SetCell g}
    (ha : cellAt v a.val ≠ true) (h : Filling ht wd v a [] v') :
    (foundRegions g v').ncard = (foundRegions g v).ncard + 1 := by
  have hfound : foundRegions g v' = insert (regionOf a) (foundRegions g v) := by
    ext q
    simp only [foundRegions, Set.mem_ofPred_eq, Set.mem_insert_iff, h.cellAt_iff]
    constructor
    · rintro ⟨b, hb | hb, rfl⟩
      · exact .inr ⟨b, hb, rfl⟩
      · exact .inl hb
    · rintro (rfl | ⟨b, hb, rfl⟩)
      · exact ⟨a, .inr rfl, rfl⟩
      · exact ⟨b, .inl hb, rfl⟩
  have hnew : regionOf a ∉ foundRegions g v := by
    rintro ⟨b, hb, hba⟩
    exact ha ((hclosed.cellAt_iff hba).1 hb)
  have := finite_regions g
  rw [hfound, Set.ncard_insert_of_notMem hnew (Set.toFinite _)]

/-- One cell of the scan: the state stays, no mark is taken away, and the cell is marked if it is set. -/
theorem Scanned.scanCell (hg : Rect ht wd g) {acc : Nat × List (List Bool)} (h : Scanned ht wd g acc)
    (c : Coord) :
    Scanned ht wd g (scanCell g ht wd acc c) ∧
    ∀ x : SetCell g, (cellAt acc.2 x.val = true ∨ x.val = c) →
      cellAt (scanCell g ht wd acc c).2 x.val = true := by
  unfold Machine.scanCell
  split
  case isFalse hold =>
    refine ⟨h, fun x hx => ?_⟩
    obtain hx | rfl := hx
    · exact hx
    · by_contra hunmarked
      exact hold (isNew_iff.2 ⟨cellAt_setCell x, hunmarked⟩)
  case isTrue hnew =>
    obtain ⟨hset, hunmarked⟩ := isNew_iff.1 hnew
    have hcount := card_unmarked_markVisited hg h.rect hnew
    have hle := card_unmarked_le (ht := ht) (wd := wd) (g := g) acc.2
    have hend := (filling_start hg h.rect h.closed (setCellAt c hset)).flood hg (ht * wd)
      (f := { visited := markVisited c acc.2, work := [c] })
      (show 1 + (unmarked ht wd g (markVisited c acc.2)).card ≤ ht * wd by omega)
    refine ⟨⟨hend.rect, hend.closedMarks, ?_⟩, fun x hx => ?_⟩
    · rw [h.count]
      exact (ncard_foundRegions_of_filling h.closed hunmarked hend).symm
    · obtain hx | rfl := hx
      · exact hend.keeps _ hx
      · exact hend.started

/-- The scan over any cells leaves all set cells among them marked. -/
theorem Scanned.foldl (hg : Rect ht wd g) (cs : List Coord) {acc : Nat × List (List Bool)}
    (h : Scanned ht wd g acc) :
    Scanned ht wd g (cs.foldl (Machine.scanCell g ht wd) acc) ∧
    ∀ x : SetCell g, (cellAt acc.2 x.val = true ∨ x.val ∈ cs) →
      cellAt (cs.foldl (Machine.scanCell g ht wd) acc).2 x.val = true := by
  induction cs generalizing acc with
  | nil => exact ⟨h, fun x hx => hx.resolve_right List.not_mem_nil⟩
  | cons c cs ih =>
    obtain ⟨hstep, hmarks⟩ := h.scanCell hg c
    obtain ⟨hend, hall⟩ := ih hstep
    refine ⟨hend, fun x hx => hall x ?_⟩
    obtain hx | hx := hx
    · exact .inl (hmarks x (.inl hx))
    · obtain hx | hx := List.mem_cons.1 hx
      · exact .inl (hmarks x (.inr hx))
      · exact .inr hx

/-- The cells of a grid in row-major order are all of them. -/
theorem mem_cellsOf {c : Coord} : c ∈ cellsOf ht wd ↔ c.1 < ht ∧ c.2 < wd := by
  obtain ⟨r, k⟩ := c
  simp [cellsOf]

/-- The count of a rectangular grid is the number of its regions (R191, R192). -/
theorem regionCount_eq_card (hg : Rect ht wd g) : regionCount g ht wd = Nat.card (Regions g) := by
  obtain ⟨hend, hall⟩ := (scanned_start ht wd g).foldl hg (cellsOf ht wd)
  have hevery : foundRegions g
      ((cellsOf ht wd).foldl (scanCell g ht wd) (0, List.replicate ht (List.replicate wd false))).2
        = Set.univ := by
    refine Set.eq_univ_of_forall fun q => ?_
    obtain ⟨a, rfl⟩ := Quot.exists_rep q
    exact ⟨a, hall a (.inr (mem_cellsOf.2 (hg.lt_of_cellAt (cellAt_setCell a)))), rfl⟩
  rw [regionCount, hend.count, hevery, Set.ncard_univ]

end Scan

/-- A grid whose check phase passes is rectangular. -/
theorem rect_of_firstRagged {g : List (List Bool)} (h : firstRagged g = none) :
    Rect g.length (firstWidth g) g :=
  ⟨rfl, firstRagged_eq_none.1 h⟩

/-- Rows of equal width pass the check phase. -/
theorem firstRagged_of_equal {g : List (List Bool)} (h : ∀ row ∈ g, ∀ row' ∈ g, row.length = row'.length) :
    firstRagged g = none := by
  cases g with
  | nil => rfl
  | cons row0 g => exact firstRagged_of_width fun row hrow => h row hrow row0 List.mem_cons_self

/-! ### How many regions there can be -/

/-- The pair of columns, 0 and 1 or 2 and 3 and so on, in which a cell stands. -/
def columnPair (c : Coord) : Coord := (c.1, c.2 / 2)

/-- Two set cells in one pair of columns are one cell or neighbours, so they lie in one region. -/
theorem regionOf_eq_of_columnPair {g : List (List Bool)} {a b : SetCell g}
    (h : columnPair a.val = columnPair b.val) : regionOf a = regionOf b := by
  obtain ⟨hrow, hcol⟩ := Prod.mk.inj h
  have hcases : a.val.2 = b.val.2 ∨ a.val.2 + 1 = b.val.2 ∨ b.val.2 + 1 = a.val.2 := by omega
  obtain heq | hadj := hcases
  · exact congrArg regionOf (Subtype.ext (Prod.ext hrow heq))
  · exact regionOf_eq_of_adjacent (.inl ⟨hrow, hadj⟩)

/-- A grid of at most 128 rows of at most 128 cells has at most 8192 regions (R37). -/
theorem card_regions_le {g : List (List Bool)} (hrows : g.length ≤ 128)
    (hwidths : ∀ row ∈ g, row.length ≤ 128) : Nat.card (Regions g) ≤ 8192 := by
  have hrange : ∀ a : SetCell g, a.val.1 < 128 ∧ a.val.2 / 2 < 64 := by
    intro a
    obtain ⟨row, hrow, hr, hc⟩ := exists_row_of_cellAt (cellAt_setCell a)
    have hwidth := hwidths row hrow
    omega
  have hinj : Function.Injective fun q : Regions g =>
      ((⟨q.out.val.1, (hrange q.out).1⟩, ⟨q.out.val.2 / 2, (hrange q.out).2⟩) : Fin 128 × Fin 64) := by
    intro q q' h
    obtain ⟨hrow, hcol⟩ := Prod.mk.inj h
    have hpair : columnPair q.out.val = columnPair q'.out.val := Prod.ext (Fin.mk.inj hrow) (Fin.mk.inj hcol)
    calc q = regionOf q.out := (Quot.out_eq q).symm
      _ = regionOf q'.out := regionOf_eq_of_columnPair hpair
      _ = q' := Quot.out_eq q'
  refine (Nat.card_le_card_of_injective _ hinj).trans ?_
  rw [Nat.card_prod, Nat.card_fin, Nat.card_fin]

/-- A grid in canonical form has at most 8192 regions. -/
theorem card_regions_le_of_wf {s : State} (h : Memory.wf s = true) : Nat.card (Regions s.grid) ≤ 8192 := by
  obtain ⟨-, -, -, -, -, hrows, hwidths⟩ := (Memory.wf_iff s).1 h
  exact card_regions_le hrows fun row hrow => length_le_of_bitRowOk (hwidths row hrow)

/-- The count that REGION stores in a legal state is in range (R37). -/
theorem regionCountInRange_of_region {s t : State} (hs : Legal s) (hrange : RegionCountInRange s)
    (h : exec .region s = .next t) : RegionCountInRange t := by
  obtain ⟨e, info, rfl⟩ | ⟨hpasses, rsp, rfl⟩ := ran_of_exec h
  case failed => exact hrange
  case passed =>
    have hcount := regionCount_eq_card (rect_of_firstRagged hpasses)
    have hle := card_regions_le_of_wf hs.spaces
    rw [← hcount] at hle
    exact (Nat.mod_le _ _).trans hle

end Sys2Proof.Machine

namespace Sys2Proof.Proofs

open Sys2Proof Sys2Proof.Machine Sys2Proof.Certificates

/-- Settles O44: the scan with its fills counts each region of a rectangular grid once. -/
theorem regionCountsTheRegions : Obligations.RegionCountsTheRegions := by
  intro s hwidths
  have hpass := firstRagged_of_equal hwidths
  rw [← regionCount_eq_card (rect_of_firstRagged hpass)]
  exact answers_of_respond (exec_region_of_rectangular hpass)

/-- Settles O46: each region has a cell, and two set cells in one pair of columns share their region, so there
are at most as many regions as pairs. -/
theorem regionsAreAtMostHalfTheCells : Obligations.RegionsAreAtMostHalfTheCells :=
  fun _ hs _ => card_regions_le_of_wf hs.spaces

/-- Settles O59: only RESET and REGION write the count; the one clears it, and the other stores a number of
regions. -/
theorem stepKeepsTheRegionCountInRange : Obligations.StepKeepsTheRegionCountInRange := by
  intro s t hs hrange hstep
  obtain ⟨-, rfl⟩ | ⟨rest, -, rfl⟩ | ⟨w, rest, i, -, -, hexec⟩ | ⟨w, rest, e, -, -, rfl⟩ := step_eq_next hstep
  case inl => exact hrange
  case inr.inl => exact Nat.zero_le _
  case inr.inr.inr => exact hrange
  case inr.inr.inl =>
    obtain ⟨-, -, -, -, -, -, -, -, -, -, hwrites, -⟩ := onlyTheListedInstructionsWrite i _ t hexec
    by_cases hsame : t.rcnt = s.rcnt
    · rw [RegionCountInRange, hsame]
      exact hrange
    · have hi := hwrites hsame
      simp only [List.mem_cons, List.not_mem_nil, or_false] at hi
      obtain rfl | rfl := hi
      · cases hexec
        exact Nat.zero_le _
      · exact regionCountInRange_of_region (hs.with_pending rest) hrange hexec

end Sys2Proof.Proofs
end
